-- ==== Sys2Proof/Word.lean ====
section
/-! DEFINITION. The machine words of the SPU engine: bytes, 16-bit registers and samples, 32-bit
operands, 64-bit command and response words, and the stereo pair (spec file 00, rules R14, R18). -/

namespace Sys2Proof

/-- One byte of SPU RAM (R37). -/
abbrev Byte := BitVec 8

/-- A 16-bit register that the spec reads unsigned (R14 `uint16`). -/
abbrev U16 := BitVec 16

/-- A 16-bit register or sample that the spec reads signed (R14 `int16`): its value is `toInt`. -/
abbrev S16 := BitVec 16

/-- A 32-bit operand, descriptor or response value (R85, R89). -/
abbrev Word32 := BitVec 32

/-- A 64-bit command word (R85) or response word (R89). -/
abbrev Word := BitVec 64

/-- StereoSample: "a transient (left, right) 16-bit signed pair" (R18). -/
structure Stereo where
  left : S16
  right : S16
deriving DecidableEq, Repr, Inhabited

end Sys2Proof
end

