-- ==== Sys2Proof/Config.lean ====
section
/-! DEFINITION. What an instance of the engine fixes (spec file 00, rule R11) and the one free value of
the model: the answer of the external-input oracle (rule R16). The default instance stands in
Machine/Instance.lean, the machine of any instance in Machine/Configured.lean. -/

namespace Sys2Proof

/-- The configuration parameters of rule R11 (a) and (b), with the law rule R155 asks of every instance:
four samples of silence interpolate to silence. -/
structure Config where
  /-- ADPCM_FILTER_TABLE: (f0, f1) weights in units of 1/64. -/
  filterTable : List (Int × Int)
  /-- INTERP: four samples, oldest first, and a 12-bit fraction. -/
  interp : S16 → S16 → S16 → S16 → Nat → S16
  /-- "it returns 0 when all four samples are 0" (R155). -/
  interp_zero : ∀ frac, frac ≤ 0xFFF → interp 0 0 0 0 frac = 0

/-- The answer to the n-th call of `ExtIn()` where the host has lined up no answer: any pair of int16
(R16, R11 (c)). It has no body: nothing is known of its value. DESIGN CHOICE, log entry 6. -/
opaque Config.extIn : Nat → Stereo

end Sys2Proof
end

