-- ==== Sys2Proof/Machine/State.lean ====
section
/-! DEFINITION. The state of the engine as plain data: every piece of state of spec file 10 (rules R20 to
R45), the host's side of the interface (log entries 1, 2 and 6), the faults of spec file 60 and the
state before the first INIT. -/

namespace Sys2Proof.Machine

/-- The six faults (R301). None of them stops the machine: the operation is answered with a fault
response and the engine goes on (R300), so no step ends in `Host.Outcome.fault` (log entry 5). Safe. -/
inductive Fault where
  /-- Raised by the decode of a word that is no operation (R302). Safe. -/
  | illegalCommand
  /-- Raised by every operation but INIT while the engine is not live (R303). Safe. -/
  | notLive
  /-- Raised by INIT on a live engine (R303). Safe. -/
  | alreadyLive
  /-- Raised by INIT with an illegal voice count or RAM size (R306). Safe. -/
  | configFault
  /-- Raised by a voice operation whose index is not below NVOICES (R304). Safe. -/
  | voiceIndexFault
  /-- Raised by RAM_WR and RAM_RD with an address not below RAMSIZE (R305). Safe. -/
  | ramAddressFault
deriving DecidableEq, Repr

/-- Why a step has no meaning. No operation of this model answers with it. -/
inductive Refusal where
  /-- Raised by an arm of `exec` whose operation has no meaning yet. Safe: the run stops. -/
  | notModelled (mnemonic : String)
deriving DecidableEq, Repr

/-- The envelope phase (R33). -/
inductive Phase where
  | off
  | attack
  | decay
  | sustain
  | release
deriving DecidableEq, Repr

/-- SPU RAM as (address, byte) pairs: addresses strictly rising, no entry equal to what an unlisted
address reads as (R37; log entry 10). -/
abbrev Memory := List Host.Cell

/-- One voice V[i] (R21 to R36). -/
structure Voice where
  /-- RATE (R22). -/
  rate : U16
  /-- VOL_L (R23). -/
  volL : S16
  /-- VOL_R (R23). -/
  volR : S16
  /-- ADSR (R24). -/
  adsr : Word32
  /-- START (R25). -/
  start : Word32
  /-- CUR (R26). -/
  cur : Nat
  /-- NEXT (R27). -/
  next : Nat
  /-- LOOP (R28). -/
  loop : Nat
  /-- H[0..3], oldest first (R29). -/
  hist : Vector S16 4
  /-- PCM[0..27] (R30). -/
  pcm : Vector S16 28
  /-- SIDX (R31). -/
  sidx : Nat
  /-- FRAC (R32). -/
  frac : Nat
  /-- PHASE (R33). -/
  phase : Phase
  /-- LEVEL (R34). -/
  level : Nat
  /-- ENV_WAIT (R35). -/
  envWait : Nat
  /-- DISABLED (R36). -/
  disabled : Bool
  /-- RSEND (R36). -/
  rsend : Bool
deriving DecidableEq, Repr

/-- The state of the engine and of its interface to the host. -/
structure State where
  /-- LIVE (R20). -/
  live : Bool
  /-- RAMSIZE, fixed at INIT (R9, R46). -/
  ramSize : Nat
  /-- RAM[0 .. RAMSIZE-1] (R37). -/
  ram : Memory
  /-- V[0] .. V[NVOICES-1] (R21). -/
  voices : List Voice
  /-- MVOL_L (R38). -/
  mvolL : S16
  /-- MVOL_R (R38). -/
  mvolR : S16
  /-- RVOL_L (R38). -/
  rvolL : S16
  /-- RVOL_R (R38). -/
  rvolR : S16
  /-- XVOL_L (R38). -/
  xvolL : S16
  /-- XVOL_R (R38). -/
  xvolR : S16
  /-- MUTE, bit 0 of CTRL (R39). -/
  mute : Bool
  /-- REVERB_EN, bit 1 of CTRL (R39). -/
  reverbEn : Bool
  /-- EXT_EN, bit 2 of CTRL (R39). -/
  extEn : Bool
  /-- EXT_REVERB_EN, bit 3 of CTRL (R39). -/
  extReverbEn : Bool
  /-- EXT_CB (R40). -/
  extCb : Bool
  /-- CYCLE (R41). -/
  cycle : Nat
  /-- RBASE, in 8-byte units (R42). -/
  rbase : Word32
  /-- RCUR, a byte offset in the work area (R43). -/
  rcur : Nat
  /-- ROUT_L (R44). -/
  routL : S16
  /-- ROUT_R (R44). -/
  routR : S16
  /-- RR[0..31] (R45). -/
  rr : Vector U16 32
  /-- The model's own: command words issued and not yet run (R3, R85; log entry 1). -/
  cmds : List Word
  /-- The model's own: the response to the last operation (R89; log entry 2). -/
  resp : Option Word
  /-- The model's own: answers lined up for `ExtIn()` (R16; log entry 6). -/
  extIn : List Stereo
  /-- The model's own: `ExtIn()` calls made so far; it selects the free value (log entry 6). -/
  extCalls : Nat
deriving DecidableEq, Repr

/-- A voice as INIT leaves it (R48). -/
def Voice.reset : Voice where
  rate := 0
  volL := 0
  volR := 0
  adsr := 0
  start := 0
  cur := 0
  next := 0
  loop := 0
  hist := Vector.replicate 4 0
  pcm := Vector.replicate 28 0
  sidx := 0
  frac := 0
  phase := .off
  level := 0
  envWait := 0
  disabled := false
  rsend := false

/-- The engine before the first INIT: not live (R20, R330). The other fields hold the values of R48 as
placeholders, which no operation reads while the engine is not live (log entry 4). -/
def State.reset : State where
  live := false
  ramSize := 0
  ram := []
  voices := []
  mvolL := 0
  mvolR := 0
  rvolL := 0
  rvolR := 0
  xvolL := 0
  xvolR := 0
  mute := false
  reverbEn := false
  extEn := false
  extReverbEn := false
  extCb := false
  cycle := 0
  rbase := 0
  rcur := 0
  routL := 0
  routR := 0
  rr := Vector.replicate 32 0
  cmds := []
  resp := none
  extIn := []
  extCalls := 0

/-- NVOICES, the number of voices (R9, R21). -/
abbrev State.nVoices (s : State) : Nat := s.voices.length

end Sys2Proof.Machine
end

