-- ==== Sys2Proof/Machine/Memory.lean ====
section
/-! DEFINITION. SPU RAM as a canonical list of cells, and the primitives MemRead and MemWrite of spec
file 20 (rules R62 to R64). The functions are total; the rules call them inside RAM only (R62; log
entry 11). -/

namespace Sys2Proof.Machine

/-- What an address reads as that nothing has written: INIT zero-fills RAM (R48, R220). -/
def Memory.fill : Byte := 0

/-- The canonical form: addresses strictly rising, no listed byte equal to the fill. -/
abbrev Memory.wf (m : Memory) : Prop :=
  m.Pairwise (fun c d => c.1 < d.1) ∧ ∀ c ∈ m, c.2 ≠ Memory.fill

/-- `MemRead(addr, 1)` (R62). -/
def Memory.read : Memory → Nat → Byte
  | [], _ => Memory.fill
  | c :: m, a => if c.1 = a then c.2 else Memory.read m a

/-- Put a cell at its place in the rising order of addresses. -/
def Memory.insertCell (a : Nat) (b : Byte) : Memory → Memory
  | [] => [(a, b)]
  | c :: m => if a < c.1 then (a, b) :: c :: m else c :: Memory.insertCell a b m

/-- `MemWrite(addr, 1, v)` (R63). Writing the fill removes the cell, so equal memories are equal lists. -/
def Memory.write (m : Memory) (a : Nat) (b : Byte) : Memory :=
  let others := m.filter (fun c => c.1 != a)
  if b = Memory.fill then others else Memory.insertCell a b others

/-- `MemRead(addr, 2)`: little-endian (R62, R64). -/
def Memory.read16 (m : Memory) (a : Nat) : BitVec 16 := Memory.read m (a + 1) ++ Memory.read m a

/-- `MemWrite(addr, 2, v)`: low byte first (R63, R64). -/
def Memory.write16 (m : Memory) (a : Nat) (v : BitVec 16) : Memory :=
  Memory.write (Memory.write m a (v.extractLsb' 0 8)) (a + 1) (v.extractLsb' 8 8)

/-- Sixteen single-byte reads in ascending address order (R61 (b), R76). -/
def Memory.readBlock (m : Memory) (a : Nat) : Vector Byte 16 :=
  Vector.ofFn fun j => Memory.read m (a + j.val)

end Sys2Proof.Machine
end

