-- ==== Sys2Proof/Machine/Operands.lean ====
section
/-! DEFINITION. The arithmetic of spec file 00 (rules R14, R17) and the forms of a response value (spec
file 30, rules R87 and R89). -/

namespace Sys2Proof.Machine

/-- `x >> n`: the arithmetic shift, floor of x / 2^n (R14). -/
def asr (x : Int) (n : Nat) : Int := x / 2 ^ n

/-- `x << n` (R14). -/
def shl (x : Int) (n : Nat) : Int := x * 2 ^ n

/-- `clamp(x, lo, hi)` (R14). -/
def clamp (x lo hi : Int) : Int := max lo (min hi x)

/-- `sat16(x)` (R14), as a stored int16. -/
def sat16 (x : Int) : S16 := BitVec.ofInt 16 (clamp x (-32768) 32767)

/-- `(a * v) >> 15` for an int16 gain v: the scaling of R158, R210 and R216. -/
def scale (a : Int) (v : S16) : Int := asr (a * v.toInt) 15

/-- The 16-bit pattern of an exact integer that is in int16 range (R17). -/
def toS16 (x : Int) : S16 := BitVec.ofInt 16 x

/-- A byte in `value[7:0]` (R89, R271). -/
def byteValue (b : Byte) : Word32 := 0#24 ++ b

/-- A 16-bit field zero-extended: a uint16, or the two's complement of an int16 (R89). -/
def halfValue (v : BitVec 16) : Word32 := 0#16 ++ v

/-- A stereo sample: left in `value[31:16]`, right in `value[15:0]` (R89). -/
def stereoValue (p : Stereo) : Word32 := p.left ++ p.right

/-- A response with `status = 0` (R89). -/
def okWord (value : Word32) : Word := 0#24 ++ 0#8 ++ value

/-- The fault codes (R301). -/
def faultCode : Fault → BitVec 8
  | .illegalCommand => 1
  | .notLive => 2
  | .alreadyLive => 3
  | .configFault => 4
  | .voiceIndexFault => 5
  | .ramAddressFault => 6

/-- A fault response: the code in `status`, `value = 0` (R89, R300). -/
def faultWord (f : Fault) : Word := 0#24 ++ faultCode f ++ 0#32

/-- `status = resp[39:32]` (R89). -/
def statusOf (w : Word) : BitVec 8 := w.extractLsb' 32 8

/-- `value = resp[31:0]` (R89). -/
def valueOf (w : Word) : Word32 := w.extractLsb' 0 32

end Sys2Proof.Machine
end

