-- ==== Sys2Proof/Machine/Instance.lean ====
section
/-! DEFINITION. The constants of spec file 00, rule R10, and the default instance of its rule R11: the
filter table of rule R124 and the linear interpolator of rule R154 (log entries 7 and 8). -/

namespace Sys2Proof.Machine

/-- The largest voice count (R9). -/
def maxVoices : Nat := 24

/-- The largest RAM size in bytes (R9). -/
def maxRamSize : Nat := 0xFFFFFFF0

/-- MAX_SHIFT (R10, R96). -/
def maxShift : Nat := 12

/-- RATE_MAX, four samples per STEP (R10, R150). -/
def rateMax : Nat := 0x4000

/-- EXP_THRESHOLD (R10, R163). -/
def expThreshold : Nat := 0x6000

/-- The largest envelope level (R34). -/
def levelMax : Nat := 0x7FFF

/-- ADPCM_FILTER_TABLE, default (R124). -/
def defaultFilterTable : List (Int × Int) := [(0, 0), (60, 0), (115, -52), (98, -55)]

/-- INTERP, default: linear between the two newest samples (R154). -/
def linearInterp (_s3 _s2 s1 s0 : S16) (frac : Nat) : S16 :=
  toS16 (s1.toInt + asr ((s0.toInt - s1.toInt) * frac) 12)

/-- Silence interpolates to silence (R155). -/
theorem linearInterp_zero (frac : Nat) : linearInterp 0 0 0 0 frac = 0 := by
  simp [linearInterp, asr, toS16]

/-- The instance that `exec` runs (R11). -/
def defaultConfig : Config where
  filterTable := defaultFilterTable
  interp := linearInterp
  interp_zero := fun frac _ => linearInterp_zero frac

/-- NBLOCKS (R9). -/
def nBlocks (s : State) : Nat := s.ramSize / 16

end Sys2Proof.Machine
end

