-- ==== Sys2Proof/Machine/Ops.lean ====
section
/-! DEFINITION. The operations every meaning is made of: answering, taking a fault (spec file 60, rules
R300 to R308), the checks that stand before an operation's first access (spec file 44, rule R229), the
change of one voice, the command queue, and the external-input oracle (spec file 00, rule R16). -/

namespace Sys2Proof.Machine

/-- What a step or a meaning answers. -/
abbrev Answer := Host.Outcome State Fault Refusal

/-- The host has been given this response word (R89; log entry 2). -/
def answered (w : Word) (s : State) : State := { s with resp := some w }

/-- The operation ends with `status = OK` and this value (R89). -/
def respond (value : Word32) (s : State) : Answer := .next (answered (okWord value) s)

/-- TAKING A FAULT: no state changes, and the response word has the fault's code and `value = 0` (R300).
There is no handler and no return (R307). -/
def raise (f : Fault) (s : State) : Answer := .next (answered (faultWord f) s)

/-- `if LIVE = 0: raise NotLive` (R229, R303). -/
def ifLive (s : State) (k : Answer) : Answer := if s.live then k else raise .notLive s

/-- The lifecycle check, then `if i >= NVOICES: raise VoiceIndexFault(i)` (R229, R304). -/
def withVoice (i : Nat) (s : State) (k : Voice → Answer) : Answer :=
  ifLive s <|
    match s.voices[i]? with
    | some v => k v
    | none => raise .voiceIndexFault s

/-- The lifecycle check, then `if addr >= RAMSIZE: raise RamAddressFault(addr)` (R229, R305). -/
def withAddress (addr : Nat) (s : State) (k : Answer) : Answer :=
  ifLive s <| if addr < s.ramSize then k else raise .ramAddressFault s

/-- `V[i] <- v` (R15). -/
def setVoice (i : Nat) (v : Voice) (s : State) : State := { s with voices := s.voices.set i v }

/-- A voice register write: the checks, then the change of voice i, with response value 0 (R229). -/
def changeVoice (i : Nat) (f : Voice → Voice) (s : State) : Answer :=
  withVoice i s fun v => respond 0 (setVoice i (f v) s)

/-- A voice register read: the checks, then the value read; nothing is written (R229). -/
def readVoice (i : Nat) (f : Voice → Word32) (s : State) : Answer :=
  withVoice i s fun v => respond (f v) s

/-- A global register write: the lifecycle check, then the change, with response value 0 (R229). -/
def changeGlobal (f : State → State) (s : State) : Answer := ifLive s (respond 0 (f s))

/-- A global register read: the lifecycle check, then the value read; nothing is written (R229). -/
def readGlobal (f : State → Word32) (s : State) : Answer := ifLive s (respond (f s) s)

/-- The next command word the host has issued, and the state without it (R3, R12; log entry 1). -/
def fetchCommand (s : State) : Option (Word × State) :=
  match s.cmds with
  | [] => none
  | w :: rest => some (w, { s with cmds := rest })

/-- The host issues a command word that runs before those already issued (log entry 1). -/
def pushCommand (w : Word) (s : State) : State := { s with cmds := w :: s.cmds }

/-- One call of the oracle `ExtIn()` (R16): the next answer the host has lined up, or else a free value.
Each call is counted (log entry 6). -/
def callExtIn (s : State) : Stereo × State :=
  match s.extIn with
  | [] => (Config.extIn s.extCalls, { s with extCalls := s.extCalls + 1 })
  | p :: rest => (p, { s with extIn := rest, extCalls := s.extCalls + 1 })

end Sys2Proof.Machine
end

