-- ==== Sys2Proof/Machine/Lifecycle.lean ====
section
/-! DEFINITION. INIT and DESTROY (spec file 43, rules R220 and R221; reset values R48). -/

namespace Sys2Proof.Machine

/-- The parameters INIT accepts (R9, R220, R306). -/
def legalParams (nv size : Nat) : Bool :=
  !(decide (nv > maxVoices) || decide (size < 16) || decide (size % 16 ≠ 0)
    || decide (size > maxRamSize))

/-- The engine's own state replaced by that of `e`, the host's side of the interface kept (R46). -/
def withEngine (e s : State) : State :=
  { e with cmds := s.cmds, resp := s.resp, extIn := s.extIn, extCalls := s.extCalls }

/-- The state after a successful INIT: RAM all zero, every voice Off, every other field zero (R48). -/
def initState (nv size : Nat) (s : State) : State :=
  withEngine
    { State.reset with
      live := true, ramSize := size, voices := List.replicate nv Voice.reset }
    s

/-- INIT nv, size (R220). -/
def execInit (nv size : Nat) (s : State) : Answer :=
  if s.live then raise .alreadyLive s
  else if legalParams nv size then respond 0 (initState nv size s)
  else raise .configFault s

/-- DESTROY: RAM, voices and every register cease to exist (R221). -/
def execDestroy (s : State) : Answer := ifLive s (respond 0 (withEngine State.reset s))

end Sys2Proof.Machine
end

