-- ==== Sys2Proof/Machine/Reverb.lean ====
section
/-! DEFINITION. The Reverb Unit of spec file 42 (rules R180 to R200) over the work area of spec file 20
(rules R67 to R69). The registers and the cursor are read from a snapshot state `s`, which the network
does not change (R197); RAM is threaded through it in the access order of R197. -/

namespace Sys2Proof.Machine

/-- A reverb register by its index and name (R104). -/
abbrev RevReg := Fin 32

/-- All-pass offsets (R104). -/
def dAPF1 : RevReg := 0
def dAPF2 : RevReg := 1

/-- Volumes (R104). -/
def vIIR : RevReg := 2
def vCOMB1 : RevReg := 3
def vCOMB2 : RevReg := 4
def vCOMB3 : RevReg := 5
def vCOMB4 : RevReg := 6
def vWALL : RevReg := 7
def vAPF1 : RevReg := 8
def vAPF2 : RevReg := 9

/-- Addresses (R104). -/
def mLSAME : RevReg := 10
def mRSAME : RevReg := 11
def mLCOMB1 : RevReg := 12
def mRCOMB1 : RevReg := 13
def mLCOMB2 : RevReg := 14
def mRCOMB2 : RevReg := 15
def dLSAME : RevReg := 16
def dRSAME : RevReg := 17
def mLDIFF : RevReg := 18
def mRDIFF : RevReg := 19
def mLCOMB3 : RevReg := 20
def mRCOMB3 : RevReg := 21
def mLCOMB4 : RevReg := 22
def mRCOMB4 : RevReg := 23
def dLDIFF : RevReg := 24
def dRDIFF : RevReg := 25
def mLAPF1 : RevReg := 26
def mRAPF1 : RevReg := 27
def mLAPF2 : RevReg := 28
def mRAPF2 : RevReg := 29

/-- Input volumes (R104). -/
def vLIN : RevReg := 30
def vRIN : RevReg := 31

/-- WA_BASE, in bytes (R67). -/
def waBase (s : State) : Nat := 8 * s.rbase.toNat

/-- WA_SIZE, in bytes; zero or negative when the base is at or past the end of RAM (R67). -/
def waSize (s : State) : Int := s.ramSize - 8 * s.rbase.toNat

/-- `RevAddr(D)` (R68). -/
def revAddr (s : State) (d : Int) : Nat := waBase s + ((s.rcur + d) % waSize s).toNat

/-- `RevRead(D)` (R68). -/
def revRead (s : State) (ram : Memory) (d : Int) : S16 := Memory.read16 ram (revAddr s d)

/-- `RevWrite(D, v)` (R68). -/
def revWrite (s : State) (ram : Memory) (d : Int) (v : S16) : Memory :=
  Memory.write16 ram (revAddr s d) v

/-- The volume register k: `sext_16` when used as a number (R45, R104). -/
def vol (s : State) (k : RevReg) : S16 := s.rr.get k

/-- The byte displacement `8*r` of the offset or address register k, read unsigned (R45, R68). -/
def disp (s : State) (k : RevReg) : Int := 8 * (s.rr.get k).toNat

/-- `mul(a, v)` (R182). -/
def mulSat (a v : S16) : S16 := sat16 (scale a.toInt v)

/-- `add(a, b)` (R182). -/
def addSat (a b : S16) : S16 := sat16 (a.toInt + b.toInt)

/-- `sub(a, b)` (R182). -/
def subSat (a b : S16) : S16 := sat16 (a.toInt - b.toInt)

/-- `Reflect(inp, d, m)`: read the tap, read the previous value, write the reflection (R185). -/
def reflect (s : State) (inp : S16) (d m : RevReg) (ram : Memory) : Memory :=
  let x := revRead s ram (disp s d)
  let p := revRead s ram (disp s m - 2)
  let t := subSat (addSat inp (mulSat x (vol s vWALL))) p
  revWrite s ram (disp s m) (addSat (mulSat t (vol s vIIR)) p)

/-- `Comb(m1, m2, m3, m4)`: saturated after each addition, in this order (R190). -/
def comb (s : State) (ram : Memory) (m1 m2 m3 m4 : RevReg) : S16 :=
  let acc := addSat 0 (mulSat (revRead s ram (disp s m1)) (vol s vCOMB1))
  let acc := addSat acc (mulSat (revRead s ram (disp s m2)) (vol s vCOMB2))
  let acc := addSat acc (mulSat (revRead s ram (disp s m3)) (vol s vCOMB3))
  addSat acc (mulSat (revRead s ram (disp s m4)) (vol s vCOMB4))

/-- `Apf(x, m, d, v)`: RAM after the write, and the stage's output (R191). -/
def allPass (s : State) (x : S16) (m d v : RevReg) (ram : Memory) : Memory × S16 :=
  let f := revRead s ram (disp s m - disp s d)
  let y := subSat x (mulSat f (vol s v))
  (revWrite s ram (disp s m) y, addSat (mulSat y (vol s v)) f)

/-- The four reflections (R186 to R189), after the input stage (R184). -/
def reflections (s : State) (inL inR : S16) (ram : Memory) : Memory :=
  let lin := mulSat inL (vol s vLIN)
  let rin := mulSat inR (vol s vRIN)
  let ram := reflect s lin dLSAME mLSAME ram
  let ram := reflect s rin dRSAME mRSAME ram
  let ram := reflect s lin dRDIFF mLDIFF ram
  reflect s rin dLDIFF mRDIFF ram

/-- The network of R197 on a work area of positive size: RAM after it, and its output pair. -/
def reverbNetwork (s : State) (inL inR : S16) : Memory × Stereo :=
  let ram := reflections s inL inR s.ram
  let lc := comb s ram mLCOMB1 mLCOMB2 mLCOMB3 mLCOMB4
  let rc := comb s ram mRCOMB1 mRCOMB2 mRCOMB3 mRCOMB4
  let la := allPass s lc mLAPF1 dAPF1 vAPF1 ram
  let ra := allPass s rc mRAPF1 dAPF1 vAPF1 la.1
  let lb := allPass s la.2 mLAPF2 dAPF2 vAPF2 ra.1
  let rb := allPass s ra.2 mRAPF2 dAPF2 vAPF2 lb.1
  (rb.1, ⟨mulSat lb.2 s.rvolL, mulSat rb.2 s.rvolR⟩)

/-- The cursor advance: one 16-bit sample, wrapped (R196). -/
def advanceCursor (s : State) : Nat := ((s.rcur + 2) % waSize s).toNat

/-- `ReverbProcess(inL, inR)`: degraded to (0, 0) on a work area of zero or negative size (R183, R197). -/
def reverbProcess (inL inR : S16) (s : State) : State × Stereo :=
  if waSize s ≤ 0 then (s, ⟨0, 0⟩)
  else
    let r := reverbNetwork s inL inR
    ({ s with ram := r.1, rcur := advanceCursor s }, r.2)

end Sys2Proof.Machine
end

