-- ==== Sys2Proof/Machine/Flags.lean ====
section
/-! DEFINITION. The flag words and bit fields of the engine: CTRL and the voice flags (spec file 30,
rules R102, R103), the ADPCM header and flags bytes (R96, R97), the ADSR descriptor (R100). There are no
arithmetic condition codes (R51). -/

namespace Sys2Proof.Machine

/-- WR_CTRL's effect: the four flags from the 4-bit word (R102, R243). -/
def setCtrl (imm : BitVec 4) (s : State) : State :=
  { s with
    mute := imm.getLsbD 0, reverbEn := imm.getLsbD 1,
    extEn := imm.getLsbD 2, extReverbEn := imm.getLsbD 3 }

/-- RD_CTRL's value: `MUTE + 2*REVERB_EN + 4*EXT_EN + 8*EXT_REVERB_EN` (R263). -/
def ctrlValue (s : State) : Word32 :=
  BitVec.ofNat 32
    (s.mute.toNat + 2 * s.reverbEn.toNat + 4 * s.extEn.toNat + 8 * s.extReverbEn.toNat)

/-- WR_VFLAGS's effect: DISABLED and RSEND from the 2-bit word (R103, R235). -/
def setVoiceFlags (imm : BitVec 2) (v : Voice) : Voice :=
  { v with disabled := imm.getLsbD 0, rsend := imm.getLsbD 1 }

/-- RD_VFLAGS's value: `DISABLED + 2 * RSEND` (R255). -/
def voiceFlagsValue (v : Voice) : Word32 := BitVec.ofNat 32 (v.disabled.toNat + 2 * v.rsend.toNat)

/-- `shift_raw = blk[0][3:0]` (R96). -/
def headerShift (header : Byte) : Nat := (header.extractLsb' 0 4).toNat

/-- `filter = blk[0][7:4]` (R96). -/
def headerFilter (header : Byte) : Nat := (header.extractLsb' 4 4).toNat

/-- `loop_end = blk[1][0]` (R97). -/
def loopEnd (flags : Byte) : Bool := flags.getLsbD 0

/-- `loop_repeat = blk[1][1]` (R97). -/
def loopRepeat (flags : Byte) : Bool := flags.getLsbD 1

/-- `loop_start = blk[1][2]` (R97). -/
def loopStart (flags : Byte) : Bool := flags.getLsbD 2

/-- S_LEVEL, bits [3:0] (R100). -/
def adsrSLevel (d : Word32) : Nat := (d.extractLsb' 0 4).toNat

/-- D_SHIFT, bits [7:4] (R100). -/
def adsrDShift (d : Word32) : Nat := (d.extractLsb' 4 4).toNat

/-- A_STEP, bits [9:8] (R100). -/
def adsrAStep (d : Word32) : Nat := (d.extractLsb' 8 2).toNat

/-- A_SHIFT, bits [14:10] (R100). -/
def adsrAShift (d : Word32) : Nat := (d.extractLsb' 10 5).toNat

/-- A_MODE, bit [15]: exponential (R100). -/
def adsrAMode (d : Word32) : Bool := d.getLsbD 15

/-- R_SHIFT, bits [20:16] (R100). -/
def adsrRShift (d : Word32) : Nat := (d.extractLsb' 16 5).toNat

/-- R_MODE, bit [21]: exponential (R100). -/
def adsrRMode (d : Word32) : Bool := d.getLsbD 21

/-- S_STEP, bits [23:22] (R100). -/
def adsrSStep (d : Word32) : Nat := (d.extractLsb' 22 2).toNat

/-- S_SHIFT, bits [28:24] (R100). Bit [29] has no effect. -/
def adsrSShift (d : Word32) : Nat := (d.extractLsb' 24 5).toNat

/-- S_DIR, bit [30]: decrease (R100). -/
def adsrSDir (d : Word32) : Bool := d.getLsbD 30

/-- S_MODE, bit [31]: exponential (R100). -/
def adsrSMode (d : Word32) : Bool := d.getLsbD 31

end Sys2Proof.Machine
end

