-- ==== Sys2Proof/Machine/Codec.lean ====
section
/-! DEFINITION. The ADPCM codec: the pure function DecodeBlock of spec file 40 (rules R120 to R128), over
the block layout of spec file 30 (rules R95 to R99). -/

namespace Sys2Proof.Machine

/-- The residual nibble of sample k: the low nibble of its byte when k is even, the high one when k is
odd (R98). -/
def nibble (blk : Vector Byte 16) (k : Fin 28) : BitVec 4 :=
  let byte := blk[2 + k.val / 2]'(by omega)
  if k.val % 2 = 1 then byte.extractLsb' 4 4 else byte.extractLsb' 0 4

/-- The effective shift `min(shift_raw, MAX_SHIFT)` (R96). -/
def blockShift (blk : Vector Byte 16) : Nat := min (headerShift blk[0]) maxShift

/-- The predictor weights (f0, f1): (0, 0) beyond the table (R96, R122). -/
def blockFilter (cfg : Config) (blk : Vector Byte 16) : Int × Int :=
  cfg.filterTable.getD (headerFilter blk[0]) (0, 0)

/-- The residual `t = sext_4(nib) << (12 - shift)` of sample k (R99). -/
def residual (blk : Vector Byte 16) (k : Fin 28) : Int :=
  shl (nibble blk k).toInt (12 - blockShift blk)

/-- The predictor term `p = (f0 * new + f1 * old + 32) >> 6` (R125). -/
def predict (filter : Int × Int) (old new : S16) : Int :=
  asr (filter.1 * new.toInt + filter.2 * old.toInt + 32) 6

/-- The sample loop of R122 over the residuals: the saturated sample enters the history. -/
def decodeRun (filter : Int × Int) : List Int → S16 → S16 → List S16
  | [], _, _ => []
  | t :: ts, old, new =>
    let s := sat16 (t + predict filter old new)
    s :: decodeRun filter ts new s

/-- What DecodeBlock returns (R120). -/
structure Decoded where
  pcm : Vector S16 28
  hist : S16 × S16
  flags : Byte
deriving DecidableEq, Repr

/-- `DecodeBlock(blk, (old, new))` (R122). -/
def decodeBlock (cfg : Config) (blk : Vector Byte 16) (old new : S16) : Decoded :=
  let samples := decodeRun (blockFilter cfg blk) (List.ofFn (residual blk)) old new
  let pcm : Vector S16 28 := Vector.ofFn fun k => samples.getD k.val 0
  { pcm := pcm, hist := (pcm[26], pcm[27]), flags := blk[1] }

end Sys2Proof.Machine
end

