-- ==== Sys2Proof/Machine/Voice.lean ====
section
/-! DEFINITION. The voice of spec file 41: key on and key off (rules R140 to R143), the voice step
(R148 to R158), the block fetch (R152) and the ADSR envelope (R160 to R166). -/

namespace Sys2Proof.Machine

/-- KON's effect on its voice (R141). -/
def keyOn (v : Voice) : Voice :=
  { v with
    phase := .attack, level := 0, envWait := 0,
    cur := v.start.toNat, next := v.start.toNat, loop := v.start.toNat,
    sidx := 28, frac := 0,
    hist := Vector.replicate 4 0, pcm := Vector.replicate 28 0 }

/-- KOFF's effect on its voice: none on an Off voice (R142). -/
def keyOff (v : Voice) : Voice :=
  if v.phase = .off then v else { v with phase := .release, envWait := 0 }

/-- KON i (R141). -/
def execKon (i : Nat) (s : State) : Answer := changeVoice i keyOn s

/-- KOFF i (R142). -/
def execKoff (i : Nat) (s : State) : Answer := changeVoice i keyOff s

/-- A row of the table of R160: what one change of the level does in a phase. -/
structure EnvRow where
  decreasing : Bool
  exponential : Bool
  shift : Nat
  stepValue : Int
deriving DecidableEq, Repr

/-- The table of R160. An Off voice has no row. -/
def envRow (phase : Phase) (d : Word32) : Option EnvRow :=
  match phase with
  | .off => none
  | .attack => some ⟨false, adsrAMode d, adsrAShift d, 7 - (adsrAStep d : Int)⟩
  | .decay => some ⟨true, true, adsrDShift d, -8⟩
  | .sustain =>
    some ⟨adsrSDir d, adsrSMode d, adsrSShift d,
      if adsrSDir d then -8 + (adsrSStep d : Int) else 7 - (adsrSStep d : Int)⟩
  | .release => some ⟨true, adsrRMode d, adsrRShift d, -8⟩

/-- Ticks from this change to the next: four times more above the threshold in an exponential
increase (R161 to R163). -/
def envCycles (row : EnvRow) (level : Nat) : Nat :=
  let cycles := 2 ^ (row.shift - 11)
  if row.exponential ∧ ¬ row.decreasing ∧ expThreshold < level then cycles * 4 else cycles

/-- The change of the level: scaled by the level in an exponential decrease (R161 to R163). -/
def envStep (row : EnvRow) (level : Nat) : Int :=
  let step := shl row.stepValue (11 - row.shift)
  if row.exponential ∧ row.decreasing then asr (step * level) 15 else step

/-- The level at or below which Decay ends (R160). -/
def decayTarget (d : Word32) : Nat := (adsrSLevel d + 1) * 0x800

/-- One change of the level, clamped, and the phase transition tested on the new level (R161, R164,
R166). -/
def envChange (row : EnvRow) (v : Voice) : Voice :=
  let level := (clamp (v.level + envStep row v.level) 0 levelMax).toNat
  if v.phase = .attack ∧ levelMax ≤ level then
    { v with level := level, phase := .decay, envWait := 0 }
  else if v.phase = .decay ∧ level ≤ decayTarget v.adsr then
    { v with level := level, phase := .sustain, envWait := 0 }
  else if v.phase = .release ∧ level = 0 then
    { v with level := level, phase := .off, envWait := 0 }
  else
    { v with level := level, envWait := envCycles row v.level }

/-- EnvTick: a tick that still waits only counts down; otherwise the level changes (R161, R165). -/
def envTick (v : Voice) : Voice :=
  match envRow v.phase v.adsr with
  | none => v
  | some row =>
    if 1 < v.envWait then { v with envWait := v.envWait - 1 } else envChange row v

/-- The stop at a loop end without repeat: silence, phase Off (R152). -/
def stopVoice (v : Voice) : Voice := { v with level := 0, phase := .off, envWait := 0 }

/-- The flags of the block at address a, loop-start before loop-end (R152). A loop end gives NEXT the value of
LOOP as it stands, which is START, not reduced, until a loop start is met: R27, R28 and R152 say so, while
R50 calls NEXT a block address below NBLOCKS (DESIGN CHOICE, log entry 20). -/
def applyFlags (a : Nat) (flags : Byte) (v : Voice) : Voice :=
  let v := if loopStart flags then { v with loop := a } else v
  if loopEnd flags then
    let v := { v with next := v.loop }
    if loopRepeat flags then v else stopVoice v
  else v

/-- FetchBlock: decode the block at NEXT and act on its flags (R66, R152). -/
def fetchBlock (cfg : Config) (ram : Memory) (blocks : Nat) (v : Voice) : Voice :=
  let a := v.next % blocks
  let d := decodeBlock cfg (Memory.readBlock ram (16 * a)) v.pcm[26] v.pcm[27]
  applyFlags a d.flags
    { v with
      hist := #v[v.pcm[24], v.pcm[25], v.pcm[26], v.pcm[27]],
      pcm := d.pcm, cur := a, next := (a + 1) % blocks, sidx := 0 }

/-- One sample boundary of a running voice: fetch if the block is exhausted, then consume a sample
unless the fetch stopped the voice (R148, R151). -/
def crossBoundary (cfg : Config) (ram : Memory) (blocks : Nat) (v : Voice) : Voice :=
  let v := if v.sidx = 28 then fetchBlock cfg ram blocks v else v
  if v.phase = .off then v else { v with sidx := v.sidx + 1 }

/-- The boundary loop of R148: n boundaries, left as soon as the voice is Off. -/
def crossBoundaries (cfg : Config) (ram : Memory) (blocks : Nat) : Nat → Voice → Voice
  | 0, v => v
  | n + 1, v =>
    if v.phase = .off then v
    else crossBoundaries cfg ram blocks n (crossBoundary cfg ram blocks v)

/-- The sample S(j) of R153, counted from the oldest one: `windowSample v n` is S(n - 4). -/
def windowSample (v : Voice) (n : Nat) : S16 := (v.hist.toList ++ v.pcm.toList).getD n 0

/-- The interpolated sample of the four newest consumed samples, k = SIDX - 1 (R148, R153). -/
def interpolate (cfg : Config) (v : Voice) : S16 :=
  cfg.interp (windowSample v v.sidx) (windowSample v (v.sidx + 1)) (windowSample v (v.sidx + 2))
    (windowSample v (v.sidx + 3)) v.frac

/-- What VoiceStep gives: the voice after it and its contribution, two exact integers (R148). -/
structure VoiceOut where
  voice : Voice
  left : Int
  right : Int
deriving DecidableEq, Repr

/-- The phase advance of R150: the voice with its new fraction, and the boundaries crossed. -/
def advancePhase (v : Voice) : Voice × Nat :=
  let acc := v.frac + min v.rate.toNat rateMax
  ({ v with frac := acc % 4096 }, acc / 4096)

/-- The contribution of a voice whose interpolated sample is s: level, then volume (R158). -/
def voiceOutput (s : S16) (v : Voice) : VoiceOut :=
  let e := asr (s.toInt * v.level) 15
  { voice := v, left := scale e v.volL, right := scale e v.volR }

/-- VoiceStep (R148). -/
def voiceStep (cfg : Config) (ram : Memory) (blocks : Nat) (v : Voice) : VoiceOut :=
  if v.disabled then ⟨v, 0, 0⟩
  else if v.phase = .off then ⟨v, 0, 0⟩
  else
    let a := advancePhase v
    let v := crossBoundaries cfg ram blocks a.2 a.1
    if v.phase = .off then ⟨v, 0, 0⟩
    else voiceOutput (interpolate cfg v) (envTick v)

end Sys2Proof.Machine
end

