-- ==== Sys2Proof/Machine/Mix.lean ====
section
/-! DEFINITION. STEP, the per-sample operation of spec file 43 (rules R210 to R219). -/

namespace Sys2Proof.Machine

/-- The sums of one STEP: the dry mix and the reverb bus, exact integers (R210, R213). -/
structure MixBus where
  dryL : Int
  dryR : Int
  revL : Int
  revR : Int
deriving DecidableEq, Repr

/-- Add a pair to the dry mix and, where `toReverb`, to the reverb bus (R214). -/
def MixBus.add (m : MixBus) (l r : Int) (toReverb : Bool) : MixBus :=
  { dryL := m.dryL + l, dryR := m.dryR + r,
    revL := if toReverb then m.revL + l else m.revL,
    revR := if toReverb then m.revR + r else m.revR }

/-- The voice loop: every voice stepped once, in ascending index order (R213). -/
def stepVoices (cfg : Config) (ram : Memory) (blocks : Nat) :
    List Voice → MixBus → List Voice × MixBus
  | [], m => ([], m)
  | v :: vs, m =>
    let o := voiceStep cfg ram blocks v
    let r := stepVoices cfg ram blocks vs (m.add o.left o.right o.voice.rsend)
    (o.voice :: r.1, r.2)

/-- The external sample of this STEP: the oracle is called if and only if EXT_EN and EXT_CB are set,
else it is (0, 0) (R212). -/
def pollExt (s : State) : Stereo × State :=
  if s.extEn && s.extCb then callExtIn s else (⟨0, 0⟩, s)

/-- The scaled external sample joins the mix when EXT_EN is set (R210, R214). -/
def addExt (s : State) (ext : Stereo) (m : MixBus) : MixBus :=
  if s.extEn then
    m.add (scale ext.left.toInt s.xvolL) (scale ext.right.toInt s.xvolR) s.extReverbEn
  else m

/-- The reverb stage: when REVERB_EN is set the unit runs on the saturated bus and its output is kept in
ROUT (R215). -/
def runReverb (m : MixBus) (s : State) : State :=
  if s.reverbEn then
    let r := reverbProcess (sat16 m.revL) (sat16 m.revR) s
    { r.1 with routL := r.2.left, routR := r.2.right }
  else s

/-- The mix of one side with the reverb output added when REVERB_EN is set (R215). -/
def addReverb (s : State) (dry : Int) (rout : S16) : Int :=
  if s.reverbEn then dry + rout.toInt else dry

/-- The output pair: master volume, one saturation, and silence under MUTE (R216, R217). -/
def outputPair (s : State) (m : MixBus) : Stereo :=
  if s.mute then ⟨0, 0⟩
  else
    { left := sat16 (scale (addReverb s m.dryL s.routL) s.mvolL)
      right := sat16 (scale (addReverb s m.dryR s.routR) s.mvolR) }

/-- STEP after the external sample is known (R210). -/
def stepFrame (cfg : Config) (ext : Stereo) (s : State) : State × Stereo :=
  let r := stepVoices cfg s.ram (nBlocks s) s.voices ⟨0, 0, 0, 0⟩
  let bus := addExt s ext r.2
  let t := runReverb bus { s with voices := r.1 }
  ({ t with cycle := t.cycle + 1 }, outputPair t bus)

/-- STEP of an instance (R210, R11). -/
def execStepWith (cfg : Config) (s : State) : Answer :=
  ifLive s <|
    let e := pollExt s
    let r := stepFrame cfg e.1 e.2
    respond (stereoValue r.2) r.1

/-- STEP of the default instance (R210). -/
def execStep (s : State) : Answer := execStepWith defaultConfig s

end Sys2Proof.Machine
end

