-- ==== Sys2Proof/Machine/RamAccess.lean ====
section
/-! DEFINITION. The host's byte access to SPU RAM (spec file 44, rules R270 and R271). -/

namespace Sys2Proof.Machine

/-- RAM_WR b, addr (R270). -/
def execRamWr (b : Byte) (addr : Nat) (s : State) : Answer :=
  withAddress addr s (respond 0 { s with ram := Memory.write s.ram addr b })

/-- RAM_RD addr (R271). -/
def execRamRd (addr : Nat) (s : State) : Answer :=
  withAddress addr s (respond (byteValue (Memory.read s.ram addr)) s)

end Sys2Proof.Machine
end

