-- ==== Sys2Proof/Machine/RegRead.lean ====
section
/-! DEFINITION. The register reads of spec file 44 (rules R250 to R265). -/

namespace Sys2Proof.Machine

/-- RD_VRATE i: the value written, not the clamped one (R250). -/
def execRdVrate (i : Nat) (s : State) : Answer := readVoice i (fun v => halfValue v.rate) s

/-- RD_VVOLL i (R251). -/
def execRdVvoll (i : Nat) (s : State) : Answer := readVoice i (fun v => halfValue v.volL) s

/-- RD_VVOLR i (R252). -/
def execRdVvolr (i : Nat) (s : State) : Answer := readVoice i (fun v => halfValue v.volR) s

/-- RD_VADSR i (R253). -/
def execRdVadsr (i : Nat) (s : State) : Answer := readVoice i (fun v => v.adsr) s

/-- RD_VSTART i: the value written, not reduced (R254). -/
def execRdVstart (i : Nat) (s : State) : Answer := readVoice i (fun v => v.start) s

/-- RD_VFLAGS i (R255). -/
def execRdVflags (i : Nat) (s : State) : Answer := readVoice i voiceFlagsValue s

/-- RD_MVOLL (R257). -/
def execRdMvoll (s : State) : Answer := readGlobal (fun s => halfValue s.mvolL) s

/-- RD_MVOLR (R258). -/
def execRdMvolr (s : State) : Answer := readGlobal (fun s => halfValue s.mvolR) s

/-- RD_RVOLL (R259). -/
def execRdRvoll (s : State) : Answer := readGlobal (fun s => halfValue s.rvolL) s

/-- RD_RVOLR (R260). -/
def execRdRvolr (s : State) : Answer := readGlobal (fun s => halfValue s.rvolR) s

/-- RD_XVOLL (R261). -/
def execRdXvoll (s : State) : Answer := readGlobal (fun s => halfValue s.xvolL) s

/-- RD_XVOLR (R262). -/
def execRdXvolr (s : State) : Answer := readGlobal (fun s => halfValue s.xvolR) s

/-- RD_CTRL (R263). -/
def execRdCtrl (s : State) : Answer := readGlobal ctrlValue s

/-- RD_RBASE (R264). -/
def execRdRbase (s : State) : Answer := readGlobal (fun s => s.rbase) s

/-- RD_RREG k (R265). -/
def execRdRreg (k : Fin 32) (s : State) : Answer := readGlobal (fun s => halfValue (s.rr.get k)) s

end Sys2Proof.Machine
end

