-- ==== Sys2Proof/Machine/RegWrite.lean ====
section
/-! DEFINITION. The register writes of spec file 44 (rules R230 to R246). -/

namespace Sys2Proof.Machine

/-- WR_VRATE i, imm16 (R230). -/
def execWrVrate (i : Nat) (imm : U16) (s : State) : Answer :=
  changeVoice i (fun v => { v with rate := imm }) s

/-- WR_VVOLL i, imm16 (R231). -/
def execWrVvoll (i : Nat) (imm : S16) (s : State) : Answer :=
  changeVoice i (fun v => { v with volL := imm }) s

/-- WR_VVOLR i, imm16 (R232). -/
def execWrVvolr (i : Nat) (imm : S16) (s : State) : Answer :=
  changeVoice i (fun v => { v with volR := imm }) s

/-- WR_VADSR i, imm32 (R233). -/
def execWrVadsr (i : Nat) (imm : Word32) (s : State) : Answer :=
  changeVoice i (fun v => { v with adsr := imm }) s

/-- WR_VSTART i, imm32 (R234). -/
def execWrVstart (i : Nat) (imm : Word32) (s : State) : Answer :=
  changeVoice i (fun v => { v with start := imm }) s

/-- WR_VFLAGS i, imm2 (R235). -/
def execWrVflags (i : Nat) (imm : BitVec 2) (s : State) : Answer :=
  changeVoice i (setVoiceFlags imm) s

/-- WR_MVOLL imm16 (R237). -/
def execWrMvoll (imm : S16) (s : State) : Answer := changeGlobal (fun s => { s with mvolL := imm }) s

/-- WR_MVOLR imm16 (R238). -/
def execWrMvolr (imm : S16) (s : State) : Answer := changeGlobal (fun s => { s with mvolR := imm }) s

/-- WR_RVOLL imm16 (R239). -/
def execWrRvoll (imm : S16) (s : State) : Answer := changeGlobal (fun s => { s with rvolL := imm }) s

/-- WR_RVOLR imm16 (R240). -/
def execWrRvolr (imm : S16) (s : State) : Answer := changeGlobal (fun s => { s with rvolR := imm }) s

/-- WR_XVOLL imm16 (R241). -/
def execWrXvoll (imm : S16) (s : State) : Answer := changeGlobal (fun s => { s with xvolL := imm }) s

/-- WR_XVOLR imm16 (R242). -/
def execWrXvolr (imm : S16) (s : State) : Answer := changeGlobal (fun s => { s with xvolR := imm }) s

/-- WR_CTRL imm4 (R243). -/
def execWrCtrl (imm : BitVec 4) (s : State) : Answer := changeGlobal (setCtrl imm) s

/-- WR_RBASE imm32: the cursor restarts at 0 (R244). -/
def execWrRbase (imm : Word32) (s : State) : Answer :=
  changeGlobal (fun s => { s with rbase := imm, rcur := 0 }) s

/-- WR_RREG k, imm16 (R245). -/
def execWrRreg (k : Fin 32) (imm : U16) (s : State) : Answer :=
  changeGlobal (fun s => { s with rr := s.rr.set k.val imm k.isLt }) s

/-- SET_EXTCB imm1 (R246). -/
def execSetExtcb (imm : BitVec 1) (s : State) : Answer :=
  changeGlobal (fun s => { s with extCb := imm.getLsbD 0 }) s

end Sys2Proof.Machine
end

