-- ==== Sys2Proof/Syntax.lean ====
section
/-! DEFINITION. The 38 operations of the engine, one constructor per row of spec/opcode_table.json
(spec file 30, rules R86 to R88). Voice indices, counts, sizes and addresses are naturals; register
values and flag words are bit vectors of the field's width. -/

namespace Sys2Proof

/-- A host operation with its operands (R86). `i` is a voice index, `k` a reverb register index. -/
inductive Instr where
  /-- INIT nv, size (R220). -/
  | init (nv size : Nat)
  /-- DESTROY (R221). -/
  | destroy
  /-- STEP (R210). -/
  | step
  /-- KON i (R141). -/
  | kon (i : Nat)
  /-- KOFF i (R142). -/
  | koff (i : Nat)
  /-- SET_EXTCB imm1 (R246). -/
  | setExtcb (imm : BitVec 1)
  /-- WR_VRATE i, imm16 (R230). -/
  | wrVrate (i : Nat) (imm : U16)
  /-- WR_VVOLL i, imm16 (R231). -/
  | wrVvoll (i : Nat) (imm : S16)
  /-- WR_VVOLR i, imm16 (R232). -/
  | wrVvolr (i : Nat) (imm : S16)
  /-- WR_VADSR i, imm32 (R233). -/
  | wrVadsr (i : Nat) (imm : Word32)
  /-- WR_VSTART i, imm32 (R234). -/
  | wrVstart (i : Nat) (imm : Word32)
  /-- WR_VFLAGS i, imm2 (R235). -/
  | wrVflags (i : Nat) (imm : BitVec 2)
  /-- WR_MVOLL imm16 (R237). -/
  | wrMvoll (imm : S16)
  /-- WR_MVOLR imm16 (R238). -/
  | wrMvolr (imm : S16)
  /-- WR_RVOLL imm16 (R239). -/
  | wrRvoll (imm : S16)
  /-- WR_RVOLR imm16 (R240). -/
  | wrRvolr (imm : S16)
  /-- WR_XVOLL imm16 (R241). -/
  | wrXvoll (imm : S16)
  /-- WR_XVOLR imm16 (R242). -/
  | wrXvolr (imm : S16)
  /-- WR_CTRL imm4 (R243). -/
  | wrCtrl (imm : BitVec 4)
  /-- WR_RBASE imm32 (R244). -/
  | wrRbase (imm : Word32)
  /-- WR_RREG k, imm16 (R245). -/
  | wrRreg (k : Fin 32) (imm : U16)
  /-- RAM_WR b, addr (R270). -/
  | ramWr (b : Byte) (addr : Nat)
  /-- RAM_RD addr (R271). -/
  | ramRd (addr : Nat)
  /-- RD_VRATE i (R250). -/
  | rdVrate (i : Nat)
  /-- RD_VVOLL i (R251). -/
  | rdVvoll (i : Nat)
  /-- RD_VVOLR i (R252). -/
  | rdVvolr (i : Nat)
  /-- RD_VADSR i (R253). -/
  | rdVadsr (i : Nat)
  /-- RD_VSTART i (R254). -/
  | rdVstart (i : Nat)
  /-- RD_VFLAGS i (R255). -/
  | rdVflags (i : Nat)
  /-- RD_MVOLL (R257). -/
  | rdMvoll
  /-- RD_MVOLR (R258). -/
  | rdMvolr
  /-- RD_RVOLL (R259). -/
  | rdRvoll
  /-- RD_RVOLR (R260). -/
  | rdRvolr
  /-- RD_XVOLL (R261). -/
  | rdXvoll
  /-- RD_XVOLR (R262). -/
  | rdXvolr
  /-- RD_CTRL (R263). -/
  | rdCtrl
  /-- RD_RBASE (R264). -/
  | rdRbase
  /-- RD_RREG k (R265). -/
  | rdRreg (k : Fin 32)
deriving DecidableEq, Repr

end Sys2Proof
end

