-- ==== Sys2Proof/Machine/Dispatch.lean ====
section
/-! DEFINITION. The dispatch: one arm per operation, each one call of its meaning. -/

namespace Sys2Proof.Machine

def exec (i : Instr) (s : State) : Host.Outcome State Fault Refusal :=
  match i with
  | .init nv size => Sys2Proof.Machine.execInit nv size s
  | .destroy => Sys2Proof.Machine.execDestroy s
  | .step => Sys2Proof.Machine.execStep s
  | .kon n => Sys2Proof.Machine.execKon n s
  | .koff n => Sys2Proof.Machine.execKoff n s
  | .setExtcb imm => Sys2Proof.Machine.execSetExtcb imm s
  | .wrVrate n imm => Sys2Proof.Machine.execWrVrate n imm s
  | .wrVvoll n imm => Sys2Proof.Machine.execWrVvoll n imm s
  | .wrVvolr n imm => Sys2Proof.Machine.execWrVvolr n imm s
  | .wrVadsr n imm => Sys2Proof.Machine.execWrVadsr n imm s
  | .wrVstart n imm => Sys2Proof.Machine.execWrVstart n imm s
  | .wrVflags n imm => Sys2Proof.Machine.execWrVflags n imm s
  | .wrMvoll imm => Sys2Proof.Machine.execWrMvoll imm s
  | .wrMvolr imm => Sys2Proof.Machine.execWrMvolr imm s
  | .wrRvoll imm => Sys2Proof.Machine.execWrRvoll imm s
  | .wrRvolr imm => Sys2Proof.Machine.execWrRvolr imm s
  | .wrXvoll imm => Sys2Proof.Machine.execWrXvoll imm s
  | .wrXvolr imm => Sys2Proof.Machine.execWrXvolr imm s
  | .wrCtrl imm => Sys2Proof.Machine.execWrCtrl imm s
  | .wrRbase imm => Sys2Proof.Machine.execWrRbase imm s
  | .wrRreg k imm => Sys2Proof.Machine.execWrRreg k imm s
  | .ramWr b addr => Sys2Proof.Machine.execRamWr b addr s
  | .ramRd addr => Sys2Proof.Machine.execRamRd addr s
  | .rdVrate n => Sys2Proof.Machine.execRdVrate n s
  | .rdVvoll n => Sys2Proof.Machine.execRdVvoll n s
  | .rdVvolr n => Sys2Proof.Machine.execRdVvolr n s
  | .rdVadsr n => Sys2Proof.Machine.execRdVadsr n s
  | .rdVstart n => Sys2Proof.Machine.execRdVstart n s
  | .rdVflags n => Sys2Proof.Machine.execRdVflags n s
  | .rdMvoll => Sys2Proof.Machine.execRdMvoll s
  | .rdMvolr => Sys2Proof.Machine.execRdMvolr s
  | .rdRvoll => Sys2Proof.Machine.execRdRvoll s
  | .rdRvolr => Sys2Proof.Machine.execRdRvolr s
  | .rdXvoll => Sys2Proof.Machine.execRdXvoll s
  | .rdXvolr => Sys2Proof.Machine.execRdXvolr s
  | .rdCtrl => Sys2Proof.Machine.execRdCtrl s
  | .rdRbase => Sys2Proof.Machine.execRdRbase s
  | .rdRreg k => Sys2Proof.Machine.execRdRreg k s

end Sys2Proof.Machine
end

