-- ==== Sys2Proof/WellFormed.lean ====
section
/-! DEFINITION. Which operations have a command word: every operand fits its field (spec file 30, rule
R86). The fields typed as bit vectors fit by their type; an index is 8 bits, a size or an address
32 bits. -/

namespace Sys2Proof

/-- A voice index or a voice count is the 8-bit field `idx` (R85). -/
def fitsIdx (n : Nat) : Bool := decide (n < 256)

/-- A RAM size or a byte address is the 32-bit field `operand` (R85). -/
def fitsOperand (n : Nat) : Bool := decide (n < 4294967296)

/-- Every operand fits the field its format gives it (R86). -/
def Instr.wf : Instr → Bool
  | .init nv size => fitsIdx nv && fitsOperand size
  | .destroy => true
  | .step => true
  | .kon i => fitsIdx i
  | .koff i => fitsIdx i
  | .setExtcb _ => true
  | .wrVrate i _ => fitsIdx i
  | .wrVvoll i _ => fitsIdx i
  | .wrVvolr i _ => fitsIdx i
  | .wrVadsr i _ => fitsIdx i
  | .wrVstart i _ => fitsIdx i
  | .wrVflags i _ => fitsIdx i
  | .wrMvoll _ => true
  | .wrMvolr _ => true
  | .wrRvoll _ => true
  | .wrRvolr _ => true
  | .wrXvoll _ => true
  | .wrXvolr _ => true
  | .wrCtrl _ => true
  | .wrRbase _ => true
  | .wrRreg _ _ => true
  | .ramWr _ addr => fitsOperand addr
  | .ramRd addr => fitsOperand addr
  | .rdVrate i => fitsIdx i
  | .rdVvoll i => fitsIdx i
  | .rdVvolr i => fitsIdx i
  | .rdVadsr i => fitsIdx i
  | .rdVstart i => fitsIdx i
  | .rdVflags i => fitsIdx i
  | .rdMvoll => true
  | .rdMvolr => true
  | .rdRvoll => true
  | .rdRvolr => true
  | .rdXvoll => true
  | .rdXvolr => true
  | .rdCtrl => true
  | .rdRbase => true
  | .rdRreg _ => true

/-- The operation has a command word. -/
abbrev Instr.WellFormed (i : Instr) : Prop := i.wf = true

end Sys2Proof
end

