-- ==== Sys2Proof/Decode.lean ====
section
/-! DEFINITION. The decoder and the encoder of command words (spec file 30, rules R85 to R88 and R93).
The decoder is total: a 64-bit word is exactly one operation, or illegal with a named reason. -/

namespace Sys2Proof

/-- Why a word is no command (R93). All three are IllegalCommand to the host (R302). -/
inductive Illegal where
  /-- `op` is none of the 38 opcodes of R88. -/
  | reservedOpcode
  /-- `rsv` is not zero. -/
  | reservedBits
  /-- A bit that the format requires to be zero is set. -/
  | mustBeZero
deriving DecidableEq, Repr

/-- `op = cmd[63:56]` (R85). -/
def opField (w : Word) : BitVec 8 := w.extractLsb' 56 8

/-- `idx = cmd[55:48]` (R85). -/
def idxField (w : Word) : BitVec 8 := w.extractLsb' 48 8

/-- `rsv = cmd[47:32]` (R85). -/
def rsvField (w : Word) : BitVec 16 := w.extractLsb' 32 16

/-- `operand = cmd[31:0]` (R85). -/
def operandField (w : Word) : Word32 := w.extractLsb' 0 32

/-- The operation, if every must-be-zero bit of its format is zero (R86, R93). -/
def onlyIf (zero : Bool) (i : Instr) : Except Illegal Instr :=
  if zero then .ok i else .error .mustBeZero

/-- Format N: no operand (R86). -/
def formatN (idx : BitVec 8) (operand : Word32) (i : Instr) : Except Illegal Instr :=
  onlyIf (idx == 0 && operand == 0) i

/-- Format I: voice count and RAM size (R86). -/
def formatI (idx : BitVec 8) (operand : Word32) (f : Nat → Nat → Instr) : Except Illegal Instr :=
  .ok (f idx.toNat operand.toNat)

/-- Format V: voice index (R86). -/
def formatV (idx : BitVec 8) (operand : Word32) (f : Nat → Instr) : Except Illegal Instr :=
  onlyIf (operand == 0) (f idx.toNat)

/-- Format V16: voice index and a 16-bit immediate (R86). -/
def formatV16 (idx : BitVec 8) (operand : Word32) (f : Nat → BitVec 16 → Instr) :
    Except Illegal Instr :=
  onlyIf (operand.extractLsb' 16 16 == 0) (f idx.toNat (operand.extractLsb' 0 16))

/-- Format V32: voice index and a 32-bit immediate (R86). -/
def formatV32 (idx : BitVec 8) (operand : Word32) (f : Nat → Word32 → Instr) :
    Except Illegal Instr :=
  .ok (f idx.toNat operand)

/-- Format V2: voice index and a 2-bit flag word (R86). -/
def formatV2 (idx : BitVec 8) (operand : Word32) (f : Nat → BitVec 2 → Instr) :
    Except Illegal Instr :=
  onlyIf (operand.extractLsb' 2 30 == 0) (f idx.toNat (operand.extractLsb' 0 2))

/-- Format G16: a 16-bit immediate (R86). -/
def formatG16 (idx : BitVec 8) (operand : Word32) (f : BitVec 16 → Instr) : Except Illegal Instr :=
  onlyIf (idx == 0 && operand.extractLsb' 16 16 == 0) (f (operand.extractLsb' 0 16))

/-- Format G4: a 4-bit flag word (R86). -/
def formatG4 (idx : BitVec 8) (operand : Word32) (f : BitVec 4 → Instr) : Except Illegal Instr :=
  onlyIf (idx == 0 && operand.extractLsb' 4 28 == 0) (f (operand.extractLsb' 0 4))

/-- Format G1: one bit (R86). -/
def formatG1 (idx : BitVec 8) (operand : Word32) (f : BitVec 1 → Instr) : Except Illegal Instr :=
  onlyIf (idx == 0 && operand.extractLsb' 1 31 == 0) (f (operand.extractLsb' 0 1))

/-- Format G32: a 32-bit immediate (R86). -/
def formatG32 (idx : BitVec 8) (operand : Word32) (f : Word32 → Instr) : Except Illegal Instr :=
  onlyIf (idx == 0) (f operand)

/-- The reverb register index `k = idx[4:0]` (R86). -/
def regIndex (idx : BitVec 8) : Fin 32 := ⟨(idx.extractLsb' 0 5).toNat, (idx.extractLsb' 0 5).isLt⟩

/-- Format R: reverb register index (R86). -/
def formatR (idx : BitVec 8) (operand : Word32) (f : Fin 32 → Instr) : Except Illegal Instr :=
  onlyIf (idx.extractLsb' 5 3 == 0 && operand == 0) (f (regIndex idx))

/-- Format R16: reverb register index and a 16-bit immediate (R86). -/
def formatR16 (idx : BitVec 8) (operand : Word32) (f : Fin 32 → BitVec 16 → Instr) :
    Except Illegal Instr :=
  onlyIf (idx.extractLsb' 5 3 == 0 && operand.extractLsb' 16 16 == 0)
    (f (regIndex idx) (operand.extractLsb' 0 16))

/-- Format M: data byte and byte address (R86). -/
def formatM (idx : BitVec 8) (operand : Word32) (f : Byte → Nat → Instr) : Except Illegal Instr :=
  .ok (f idx operand.toNat)

/-- Format MA: byte address (R86). -/
def formatMA (idx : BitVec 8) (operand : Word32) (f : Nat → Instr) : Except Illegal Instr :=
  onlyIf (idx == 0) (f operand.toNat)

/-- The opcode map of R88, on the fields of a word whose `rsv` is zero. -/
def decodeFields (op idx : BitVec 8) (operand : Word32) : Except Illegal Instr :=
  match op.toNat with
  | 0x01 => formatI idx operand .init
  | 0x02 => formatN idx operand .destroy
  | 0x03 => formatN idx operand .step
  | 0x04 => formatV idx operand .kon
  | 0x05 => formatV idx operand .koff
  | 0x06 => formatG1 idx operand .setExtcb
  | 0x10 => formatV16 idx operand .wrVrate
  | 0x11 => formatV16 idx operand .wrVvoll
  | 0x12 => formatV16 idx operand .wrVvolr
  | 0x13 => formatV32 idx operand .wrVadsr
  | 0x14 => formatV32 idx operand .wrVstart
  | 0x15 => formatV2 idx operand .wrVflags
  | 0x20 => formatG16 idx operand .wrMvoll
  | 0x21 => formatG16 idx operand .wrMvolr
  | 0x22 => formatG16 idx operand .wrRvoll
  | 0x23 => formatG16 idx operand .wrRvolr
  | 0x24 => formatG16 idx operand .wrXvoll
  | 0x25 => formatG16 idx operand .wrXvolr
  | 0x26 => formatG4 idx operand .wrCtrl
  | 0x27 => formatG32 idx operand .wrRbase
  | 0x28 => formatR16 idx operand .wrRreg
  | 0x30 => formatM idx operand .ramWr
  | 0x31 => formatMA idx operand .ramRd
  | 0x90 => formatV idx operand .rdVrate
  | 0x91 => formatV idx operand .rdVvoll
  | 0x92 => formatV idx operand .rdVvolr
  | 0x93 => formatV idx operand .rdVadsr
  | 0x94 => formatV idx operand .rdVstart
  | 0x95 => formatV idx operand .rdVflags
  | 0xA0 => formatN idx operand .rdMvoll
  | 0xA1 => formatN idx operand .rdMvolr
  | 0xA2 => formatN idx operand .rdRvoll
  | 0xA3 => formatN idx operand .rdRvolr
  | 0xA4 => formatN idx operand .rdXvoll
  | 0xA5 => formatN idx operand .rdXvolr
  | 0xA6 => formatN idx operand .rdCtrl
  | 0xA7 => formatN idx operand .rdRbase
  | 0xA8 => formatR idx operand .rdRreg
  | _ => .error .reservedOpcode

/-- The operation a command word stands for, or why it stands for none (R93). -/
def decode (w : Word) : Except Illegal Instr :=
  if rsvField w == 0 then decodeFields (opField w) (idxField w) (operandField w)
  else .error .reservedBits

/-- A command word from its fields, with `rsv = 0` (R85). -/
def mkWord (op idx : BitVec 8) (operand : Word32) : Word := op ++ idx ++ 0#16 ++ operand

/-- The field `idx` that carries a count or an index (R86): its low 8 bits, where it has more (log entry 21). -/
def idxOf (n : Nat) : BitVec 8 := BitVec.ofNat 8 n

/-- The field `operand` that carries a size or an address (R86): its low 32 bits, where it has more. The spec
gives such an address no command word (DESIGN CHOICE, log entry 21). -/
def operandOf (n : Nat) : Word32 := BitVec.ofNat 32 n

/-- The command word of a well-formed operation (R86, R88). An operation that is not well-formed has none in
the spec; here it gets the word of its operands' low bits (DESIGN CHOICE, log entry 21). -/
def encode : Instr → Word
  | .init nv size => mkWord 0x01 (idxOf nv) (operandOf size)
  | .destroy => mkWord 0x02 0 0
  | .step => mkWord 0x03 0 0
  | .kon i => mkWord 0x04 (idxOf i) 0
  | .koff i => mkWord 0x05 (idxOf i) 0
  | .setExtcb imm => mkWord 0x06 0 (0#31 ++ imm)
  | .wrVrate i imm => mkWord 0x10 (idxOf i) (0#16 ++ imm)
  | .wrVvoll i imm => mkWord 0x11 (idxOf i) (0#16 ++ imm)
  | .wrVvolr i imm => mkWord 0x12 (idxOf i) (0#16 ++ imm)
  | .wrVadsr i imm => mkWord 0x13 (idxOf i) imm
  | .wrVstart i imm => mkWord 0x14 (idxOf i) imm
  | .wrVflags i imm => mkWord 0x15 (idxOf i) (0#30 ++ imm)
  | .wrMvoll imm => mkWord 0x20 0 (0#16 ++ imm)
  | .wrMvolr imm => mkWord 0x21 0 (0#16 ++ imm)
  | .wrRvoll imm => mkWord 0x22 0 (0#16 ++ imm)
  | .wrRvolr imm => mkWord 0x23 0 (0#16 ++ imm)
  | .wrXvoll imm => mkWord 0x24 0 (0#16 ++ imm)
  | .wrXvolr imm => mkWord 0x25 0 (0#16 ++ imm)
  | .wrCtrl imm => mkWord 0x26 0 (0#28 ++ imm)
  | .wrRbase imm => mkWord 0x27 0 imm
  | .wrRreg k imm => mkWord 0x28 (idxOf k.val) (0#16 ++ imm)
  | .ramWr b addr => mkWord 0x30 b (operandOf addr)
  | .ramRd addr => mkWord 0x31 0 (operandOf addr)
  | .rdVrate i => mkWord 0x90 (idxOf i) 0
  | .rdVvoll i => mkWord 0x91 (idxOf i) 0
  | .rdVvolr i => mkWord 0x92 (idxOf i) 0
  | .rdVadsr i => mkWord 0x93 (idxOf i) 0
  | .rdVstart i => mkWord 0x94 (idxOf i) 0
  | .rdVflags i => mkWord 0x95 (idxOf i) 0
  | .rdMvoll => mkWord 0xA0 0 0
  | .rdMvolr => mkWord 0xA1 0 0
  | .rdRvoll => mkWord 0xA2 0 0
  | .rdRvolr => mkWord 0xA3 0 0
  | .rdXvoll => mkWord 0xA4 0 0
  | .rdXvolr => mkWord 0xA5 0 0
  | .rdCtrl => mkWord 0xA6 0 0
  | .rdRbase => mkWord 0xA7 0 0
  | .rdRreg k => mkWord 0xA8 (idxOf k.val) 0

/-- The command word whose low `nbits` bits are those of `w` and whose other bits are zero, numbered as
spec/opcode_table.json numbers them: bit 0 is the least significant bit. -/
def tableWord (nbits w : Nat) : Word := BitVec.ofNat 64 (w % 2 ^ nbits)

/-- The operation the decoder reads from a table row's bits. -/
def decodeTableWord (nbits w : Nat) : Option Instr :=
  match decode (tableWord nbits w) with
  | .ok i => some i
  | .error _ => none

end Sys2Proof
end

