-- ==== Sys2Proof/Machine/Run.lean ====
section
/-! DEFINITION. What it is to run operations, for any meaning of them: one step of the machine (spec file
00, rules R3 and R13), a list of operations, and the responses to a run. Step.lean applies it to `exec`,
Configured.lean to the meaning of an instance. -/

namespace Sys2Proof.Machine

/-- One step. With no command pending nothing happens (R331; log entry 3); a word that is no operation
is answered with IllegalCommand (R302); any other is run (R13). The word is taken from the queue in every
case (log entry 1). -/
def stepOf (run : Instr → State → Answer) (s : State) : Answer :=
  match fetchCommand s with
  | none => .next s
  | some (w, s) =>
    match decode w with
    | .ok i => run i s
    | .error _ => raise .illegalCommand s

/-- A list of operations, run one after the other. -/
def runOpsOf (run : Instr → State → Answer) : List Instr → State → Answer
  | [], s => .next s
  | i :: is, s =>
    match run i s with
    | .next t => runOpsOf run is t
    | a => a

/-- The responses to the next n steps, in order (R112). -/
def responsesOf (step : State → Answer) : Nat → State → List (Option Word)
  | 0, _ => []
  | n + 1, s =>
    match step s with
    | .next t => t.resp :: responsesOf step n t
    | _ => []

end Sys2Proof.Machine
end

