-- ==== Sys2Proof/Machine/Step.lean ====
section
/-! DEFINITION. One step of the machine: the next command word is taken, decoded and run (spec file 00,
rules R3 and R13). -/

namespace Sys2Proof.Machine

/-- One step of the default instance (R13). -/
def step (s : State) : Host.Outcome State Fault Refusal := stepOf exec s

/-- The state in which the host's next command is the given word (log entry 1). -/
def State.withFetchWord (s : State) (nbits w : Nat) : State := pushCommand (tableWord nbits w) s

end Sys2Proof.Machine
end

