-- ==== Sys2Proof/Machine/Assembly.lean ====
section
/-! DEFINITION. Programs of operations (spec file 30, section 7): the pseudo-operations of rules R111 to
R117 as the lists of operations they expand to, the textual form of rule R110, and a program's
responses. -/

namespace Sys2Proof.Machine

/-- WR_VVOL i, l, r (R111). -/
def pseudoWrVvol (i : Nat) (l r : S16) : List Instr := [.wrVvoll i l, .wrVvolr i r]

/-- WR_MVOL l, r (R111). -/
def pseudoWrMvol (l r : S16) : List Instr := [.wrMvoll l, .wrMvolr r]

/-- WR_RVOL l, r (R111). -/
def pseudoWrRvol (l r : S16) : List Instr := [.wrRvoll l, .wrRvolr r]

/-- WR_XVOL l, r (R111). -/
def pseudoWrXvol (l r : S16) : List Instr := [.wrXvoll l, .wrXvolr r]

/-- STEPN n (R112). -/
def pseudoStepN (n : Nat) : List Instr := List.replicate n .step

/-- LOAD_BYTES a, b0 b1 ... (R113). Addresses are not wrapped, so one past 32 bits has no command word
(DESIGN CHOICE, log entry 21). -/
def pseudoLoadBytes : Nat → List Byte → List Instr
  | _, [] => []
  | a, b :: bs => .ramWr b a :: pseudoLoadBytes (a + 1) bs

/-- T0, the first terminator block: loop-start, all residuals zero (R114). -/
def terminator0 : List Byte := 0x00 :: 0x04 :: List.replicate 14 0

/-- T1, the second terminator block: loop-end and loop-repeat, all residuals zero (R114). -/
def terminator1 : List Byte := 0x00 :: 0x03 :: List.replicate 14 0

/-- LOAD_SAMPLE A, blocks: the bytes of the blocks and then the two terminator blocks (R114). -/
def pseudoLoadSample (a : Nat) (blocks : List (Vector Byte 16)) : List Instr :=
  pseudoLoadBytes (16 * a) (blocks.flatMap fun b => b.toList)
    ++ pseudoLoadBytes (16 * (a + blocks.length)) (terminator0 ++ terminator1)

/-- What LOAD_SAMPLE requires: `A + n + 2 <= NBLOCKS` (R114). -/
def loadSampleFits (a n : Nat) (s : State) : Bool := decide (a + n + 2 ≤ nBlocks s)

/-- WR_REVERB r0, ..., r31 (R115). -/
def pseudoWrReverb (r : Vector U16 32) : List Instr := List.ofFn fun k => .wrRreg k (r.get k)

/-- SAVE_REGION A, n (R116). -/
def pseudoSaveRegion (a n : Nat) : List Instr :=
  (List.range (16 * n)).map fun j => .ramRd (16 * a + j)

/-- CLEAR a, n (R117). -/
def pseudoClear (a n : Nat) : List Instr := (List.range n).map fun j => .ramWr 0 (a + j)

/-- The host issues a program: its command words, in order (R110; log entry 1). An operation that has no
command word is issued as the word `encode` gives it (DESIGN CHOICE, log entry 21). -/
def issue (program : List Instr) (s : State) : State :=
  { s with cmds := s.cmds ++ program.map encode }

/-- The responses to the next n steps, in order (R112). -/
abbrev responses (n : Nat) (s : State) : List (Option Word) := responsesOf step n s

/-- A mnemonic and its fields, comma-separated (R110). -/
def asmLine (mnemonic : String) (fields : List String) : String :=
  if fields.isEmpty then mnemonic else mnemonic ++ " " ++ String.intercalate ", " fields

/-- The operation as text: idx, then operand, in decimal, a volume signed (R110). -/
def asm : Instr → String
  | .init nv size => asmLine "INIT" [toString nv, toString size]
  | .destroy => asmLine "DESTROY" []
  | .step => asmLine "STEP" []
  | .kon i => asmLine "KON" [toString i]
  | .koff i => asmLine "KOFF" [toString i]
  | .setExtcb imm => asmLine "SET_EXTCB" [toString imm.toNat]
  | .wrVrate i imm => asmLine "WR_VRATE" [toString i, toString imm.toNat]
  | .wrVvoll i imm => asmLine "WR_VVOLL" [toString i, toString imm.toInt]
  | .wrVvolr i imm => asmLine "WR_VVOLR" [toString i, toString imm.toInt]
  | .wrVadsr i imm => asmLine "WR_VADSR" [toString i, toString imm.toNat]
  | .wrVstart i imm => asmLine "WR_VSTART" [toString i, toString imm.toNat]
  | .wrVflags i imm => asmLine "WR_VFLAGS" [toString i, toString imm.toNat]
  | .wrMvoll imm => asmLine "WR_MVOLL" [toString imm.toInt]
  | .wrMvolr imm => asmLine "WR_MVOLR" [toString imm.toInt]
  | .wrRvoll imm => asmLine "WR_RVOLL" [toString imm.toInt]
  | .wrRvolr imm => asmLine "WR_RVOLR" [toString imm.toInt]
  | .wrXvoll imm => asmLine "WR_XVOLL" [toString imm.toInt]
  | .wrXvolr imm => asmLine "WR_XVOLR" [toString imm.toInt]
  | .wrCtrl imm => asmLine "WR_CTRL" [toString imm.toNat]
  | .wrRbase imm => asmLine "WR_RBASE" [toString imm.toNat]
  | .wrRreg k imm => asmLine "WR_RREG" [toString k.val, toString imm.toNat]
  | .ramWr b addr => asmLine "RAM_WR" [toString b.toNat, toString addr]
  | .ramRd addr => asmLine "RAM_RD" [toString addr]
  | .rdVrate i => asmLine "RD_VRATE" [toString i]
  | .rdVvoll i => asmLine "RD_VVOLL" [toString i]
  | .rdVvolr i => asmLine "RD_VVOLR" [toString i]
  | .rdVadsr i => asmLine "RD_VADSR" [toString i]
  | .rdVstart i => asmLine "RD_VSTART" [toString i]
  | .rdVflags i => asmLine "RD_VFLAGS" [toString i]
  | .rdMvoll => asmLine "RD_MVOLL" []
  | .rdMvolr => asmLine "RD_MVOLR" []
  | .rdRvoll => asmLine "RD_RVOLL" []
  | .rdRvolr => asmLine "RD_RVOLR" []
  | .rdXvoll => asmLine "RD_XVOLL" []
  | .rdXvolr => asmLine "RD_XVOLR" []
  | .rdCtrl => asmLine "RD_CTRL" []
  | .rdRbase => asmLine "RD_RBASE" []
  | .rdRreg k => asmLine "RD_RREG" [toString k.val]

end Sys2Proof.Machine
end

