-- ==== Sys2Proof/Machine/Configured.lean ====
section
/-! DEFINITION. The machine of any instance: its filter table and its interpolator are an argument (spec
file 00, rule R11; spec file 41, rule R155). `exec`, `step` and `core` are this machine at the default
instance; no operation but STEP depends on it. -/

namespace Sys2Proof.Machine

/-- The meaning of an operation in an instance. -/
def execWith (cfg : Config) (i : Instr) (s : State) : Answer :=
  match i with
  | .step => execStepWith cfg s
  | i => exec i s

/-- One step of an instance. -/
def stepWith (cfg : Config) (s : State) : Answer := stepOf (execWith cfg) s

/-- The machine of an instance, behind the host's interface. -/
def coreWith (cfg : Config) : Host.Core where
  State := State
  Fault := Fault
  Refusal := Refusal
  step := stepWith cfg
  reset := State.reset

end Sys2Proof.Machine
end

