-- ==== Sys2Proof/Safety.lean ====
section
/-! DEFINITION. The terms in which claims speak of the machine: the invariant of rule R47, which operation
may write which state (rule R49), the phase transitions of rule R140, when two engines hold the same
persisted state (rule R275), the rows of the opcode table, which operation faults (rules R303 to R308), the
shape of a register rule of spec file 44, and the rules of the Reverb Unit and of STEP written out (spec
files 42 and 43). -/

namespace Sys2Proof.Machine

/-- The ranges of one voice: R47 (a) to (d), and the range of ENV_WAIT (R35). -/
structure Voice.Ok (v : Voice) : Prop where
  level : v.level ≤ levelMax
  frac : v.frac ≤ 0xFFF
  sidx : v.sidx ≤ 28
  silentOff : v.phase = .off → v.level = 0
  envWait : v.envWait ≤ 4 * 2 ^ 20

/-- The invariant of the machine: R47, the legal parameters of R9, the canonical form and the extent of
RAM, and that nothing exists while the engine is not live (R20), for which the model holds the placeholders
of State.reset (DESIGN CHOICE, log entry 4). R47 (e) and (g) hold by the types. -/
structure State.Inv (s : State) : Prop where
  ramWf : Memory.wf s.ram
  ramExtent : ∀ c ∈ s.ram, c.1 < s.ramSize
  sizeMultiple : s.ramSize % 16 = 0
  sizeMax : s.ramSize ≤ maxRamSize
  sizeMin : s.live = true → 16 ≤ s.ramSize
  voiceCount : s.voices.length ≤ maxVoices
  voicesOk : ∀ v ∈ s.voices, v.Ok
  cursorEven : s.rcur % 2 = 0
  cursorInside : 0 < waSize s → (s.rcur : Int) < waSize s
  deadEmpty : s.live = false → s = withEngine State.reset s

/-- The meaning completes: it answers a next state. -/
def Completes (a : Answer) : Prop := ∃ t, a = .next t

/-- The pieces of state of the table of R49. -/
inductive Part where
  | live
  | ram
  | rate
  | volume
  | adsr
  | start
  | flags
  | playback
  | envelope
  | mvol
  | rvol
  | xvol
  | ctrl
  | extCb
  | rbase
  | rcur
  | rout
  | rr
  | cycle
deriving DecidableEq, Repr

/-- The column "written by" of the table of R49, with DESTROY, after which no state exists (R221). -/
def mayWrite (i : Instr) (p : Part) : Bool :=
  match i, p with
  | .init _ _, _ => true
  | .destroy, _ => true
  | .step, .ram => true
  | .step, .playback => true
  | .step, .envelope => true
  | .step, .rcur => true
  | .step, .rout => true
  | .step, .cycle => true
  | .kon _, .playback => true
  | .kon _, .envelope => true
  | .koff _, .envelope => true
  | .setExtcb _, .extCb => true
  | .wrVrate _ _, .rate => true
  | .wrVvoll _ _, .volume => true
  | .wrVvolr _ _, .volume => true
  | .wrVadsr _ _, .adsr => true
  | .wrVstart _ _, .start => true
  | .wrVflags _ _, .flags => true
  | .wrMvoll _, .mvol => true
  | .wrMvolr _, .mvol => true
  | .wrRvoll _, .rvol => true
  | .wrRvolr _, .rvol => true
  | .wrXvoll _, .xvol => true
  | .wrXvolr _, .xvol => true
  | .wrCtrl _, .ctrl => true
  | .wrRbase _, .rbase => true
  | .wrRbase _, .rcur => true
  | .wrRreg _ _, .rr => true
  | .ramWr _ _, .ram => true
  | _, _ => false

/-- Two states agree on a piece of state; a piece of the voices agrees in every voice. -/
def samePart (s t : State) : Part → Prop
  | .live => t.live = s.live ∧ t.ramSize = s.ramSize ∧ t.nVoices = s.nVoices
  | .ram => t.ram = s.ram
  | .rate => t.voices.map (·.rate) = s.voices.map (·.rate)
  | .volume => t.voices.map (fun v => (v.volL, v.volR)) = s.voices.map (fun v => (v.volL, v.volR))
  | .adsr => t.voices.map (·.adsr) = s.voices.map (·.adsr)
  | .start => t.voices.map (·.start) = s.voices.map (·.start)
  | .flags =>
    t.voices.map (fun v => (v.disabled, v.rsend)) = s.voices.map (fun v => (v.disabled, v.rsend))
  | .playback =>
    t.voices.map (fun v => (v.cur, v.next, v.loop, v.hist, v.pcm, v.sidx, v.frac))
      = s.voices.map (fun v => (v.cur, v.next, v.loop, v.hist, v.pcm, v.sidx, v.frac))
  | .envelope =>
    t.voices.map (fun v => (v.phase, v.level, v.envWait))
      = s.voices.map (fun v => (v.phase, v.level, v.envWait))
  | .mvol => t.mvolL = s.mvolL ∧ t.mvolR = s.mvolR
  | .rvol => t.rvolL = s.rvolL ∧ t.rvolR = s.rvolR
  | .xvol => t.xvolL = s.xvolL ∧ t.xvolR = s.xvolR
  | .ctrl =>
    t.mute = s.mute ∧ t.reverbEn = s.reverbEn ∧ t.extEn = s.extEn ∧ t.extReverbEn = s.extReverbEn
  | .extCb => t.extCb = s.extCb
  | .rbase => t.rbase = s.rbase
  | .rcur => t.rcur = s.rcur
  | .rout => t.routL = s.routL ∧ t.routR = s.routR
  | .rr => t.rr = s.rr
  | .cycle => t.cycle = s.cycle

/-- The transitions a step of a voice may make: none, or one of R140 that is not KON's or KOFF's. -/
def stepTransition : Phase → Phase → Bool
  | .attack, .decay => true
  | .decay, .sustain => true
  | .attack, .off => true
  | .decay, .off => true
  | .sustain, .off => true
  | .release, .off => true
  | p, q => p == q

/-- Two voices hold the same host-writable registers (R275). -/
structure Voice.SameRegisters (v w : Voice) : Prop where
  rate : v.rate = w.rate
  volL : v.volL = w.volL
  volR : v.volR = w.volR
  adsr : v.adsr = w.adsr
  start : v.start = w.start
  disabled : v.disabled = w.disabled
  rsend : v.rsend = w.rsend

/-- Two voices, both Off, with the same host-writable registers (R275). -/
structure Voice.SamePersisted (v w : Voice) : Prop where
  registers : Voice.SameRegisters v w
  leftOff : v.phase = .off
  rightOff : w.phase = .off

/-- Two live engines hold the same persisted state, as R275 asks for, and face the same host: the same
commands, the same answers of the oracle, the same last response. RAM agrees as a whole. -/
structure SamePersisted (s t : State) : Prop where
  liveL : s.live = true
  liveR : t.live = true
  ramSize : s.ramSize = t.ramSize
  ram : s.ram = t.ram
  voices : List.Forall₂ Voice.SamePersisted s.voices t.voices
  mvol : s.mvolL = t.mvolL ∧ s.mvolR = t.mvolR
  rvol : s.rvolL = t.rvolL ∧ s.rvolR = t.rvolR
  xvol : s.xvolL = t.xvolL ∧ s.xvolR = t.xvolR
  ctrl : s.mute = t.mute ∧ s.reverbEn = t.reverbEn ∧ s.extEn = t.extEn
    ∧ s.extReverbEn = t.extReverbEn
  extCb : s.extCb = t.extCb
  rbase : s.rbase = t.rbase
  rr : s.rr = t.rr
  cursors : s.rcur = 0 ∧ t.rcur = 0
  host : s.cmds = t.cmds ∧ s.extIn = t.extIn ∧ s.extCalls = t.extCalls ∧ s.resp = t.resp

/-- The edges of the phase state machine of voice n under an operation (R140): KON of that voice to
Attack, KOFF of that voice to Release unless Off, STEP the edges above, any other operation none. -/
def phaseEdge (i : Instr) (n : Nat) (p q : Phase) : Bool :=
  match i with
  | .kon m => if m = n then q == .attack else p == q
  | .koff m => if m = n ∧ p ≠ .off then q == .release else p == q
  | .step => stepTransition p q
  | _ => p == q

/-- A row of spec/opcode_table.json: the bits a word is compared on, and their values. -/
structure OpcodeRow where
  mask : Word
  pattern : Word
deriving DecidableEq, Repr

/-- The row selects the word. -/
def OpcodeRow.Selects (r : OpcodeRow) (w : Word) : Prop := w &&& r.mask = r.pattern

/-- The 38 rows of spec/opcode_table.json, in its order. -/
def opcodeRows : List OpcodeRow :=
  [⟨0xFF00FFFF00000000, 0x0100000000000000⟩,
      ⟨0xFFFFFFFFFFFFFFFF, 0x0200000000000000⟩,
      ⟨0xFFFFFFFFFFFFFFFF, 0x0300000000000000⟩,
      ⟨0xFF00FFFFFFFFFFFF, 0x0400000000000000⟩,
      ⟨0xFF00FFFFFFFFFFFF, 0x0500000000000000⟩,
      ⟨0xFFFFFFFFFFFFFFFE, 0x0600000000000000⟩,
      ⟨0xFF00FFFFFFFF0000, 0x1000000000000000⟩,
      ⟨0xFF00FFFFFFFF0000, 0x1100000000000000⟩,
      ⟨0xFF00FFFFFFFF0000, 0x1200000000000000⟩,
      ⟨0xFF00FFFF00000000, 0x1300000000000000⟩]
    ++ [⟨0xFF00FFFF00000000, 0x1400000000000000⟩,
      ⟨0xFF00FFFFFFFFFFFC, 0x1500000000000000⟩,
      ⟨0xFFFFFFFFFFFF0000, 0x2000000000000000⟩,
      ⟨0xFFFFFFFFFFFF0000, 0x2100000000000000⟩,
      ⟨0xFFFFFFFFFFFF0000, 0x2200000000000000⟩,
      ⟨0xFFFFFFFFFFFF0000, 0x2300000000000000⟩,
      ⟨0xFFFFFFFFFFFF0000, 0x2400000000000000⟩,
      ⟨0xFFFFFFFFFFFF0000, 0x2500000000000000⟩,
      ⟨0xFFFFFFFFFFFFFFF0, 0x2600000000000000⟩,
      ⟨0xFFFFFFFF00000000, 0x2700000000000000⟩]
    ++ [⟨0xFFE0FFFFFFFF0000, 0x2800000000000000⟩,
      ⟨0xFF00FFFF00000000, 0x3000000000000000⟩,
      ⟨0xFFFFFFFF00000000, 0x3100000000000000⟩,
      ⟨0xFF00FFFFFFFFFFFF, 0x9000000000000000⟩,
      ⟨0xFF00FFFFFFFFFFFF, 0x9100000000000000⟩,
      ⟨0xFF00FFFFFFFFFFFF, 0x9200000000000000⟩,
      ⟨0xFF00FFFFFFFFFFFF, 0x9300000000000000⟩,
      ⟨0xFF00FFFFFFFFFFFF, 0x9400000000000000⟩,
      ⟨0xFF00FFFFFFFFFFFF, 0x9500000000000000⟩,
      ⟨0xFFFFFFFFFFFFFFFF, 0xA000000000000000⟩]
    ++ [⟨0xFFFFFFFFFFFFFFFF, 0xA100000000000000⟩,
      ⟨0xFFFFFFFFFFFFFFFF, 0xA200000000000000⟩,
      ⟨0xFFFFFFFFFFFFFFFF, 0xA300000000000000⟩,
      ⟨0xFFFFFFFFFFFFFFFF, 0xA400000000000000⟩,
      ⟨0xFFFFFFFFFFFFFFFF, 0xA500000000000000⟩,
      ⟨0xFFFFFFFFFFFFFFFF, 0xA600000000000000⟩,
      ⟨0xFFFFFFFFFFFFFFFF, 0xA700000000000000⟩,
      ⟨0xFFE0FFFFFFFFFFFF, 0xA800000000000000⟩]

/-- The voice index of an operation that has one (R304). -/
def voiceIndexOf : Instr → Option Nat
  | .kon n => some n
  | .koff n => some n
  | .wrVrate n _ => some n
  | .wrVvoll n _ => some n
  | .wrVvolr n _ => some n
  | .wrVadsr n _ => some n
  | .wrVstart n _ => some n
  | .wrVflags n _ => some n
  | .rdVrate n => some n
  | .rdVvoll n => some n
  | .rdVvolr n => some n
  | .rdVadsr n => some n
  | .rdVstart n => some n
  | .rdVflags n => some n
  | _ => none

/-- The byte address of an operation that has one (R305). -/
def addressOf : Instr → Option Nat
  | .ramWr _ a => some a
  | .ramRd a => some a
  | _ => none

/-- The fault of a decoded operation, in the priority of R308: lifecycle, then the operation's own value
check (R303 to R306). -/
def faultOf (i : Instr) (s : State) : Option Fault :=
  match i with
  | .init nv size =>
    if s.live then some .alreadyLive
    else if 24 < nv ∨ size < 16 ∨ size % 16 ≠ 0 ∨ 0xFFFFFFF0 < size then some .configFault
    else none
  | i =>
    if s.live = false then some .notLive
    else if (voiceIndexOf i).any fun n => decide (s.nVoices ≤ n) then some .voiceIndexFault
    else if (addressOf i).any fun a => decide (s.ramSize ≤ a) then some .ramAddressFault
    else none

/-- A list of operations, run one after the other. -/
abbrev runOps (is : List Instr) (s : State) : Answer := runOpsOf exec is s

/-- The command word with these fields and `rsv = 0` is this operation. -/
def DecodesTo (op idx : BitVec 8) (operand : Word32) (i : Instr) : Prop :=
  decode (op ++ idx ++ 0#16 ++ operand) = .ok i

/-- An operation without a voice index or an address: on an engine that is not live it faults with
NotLive, and nothing else changes (R229). -/
def FaultsNotLive (i : Instr) : Prop :=
  ∀ s : State, s.live = false → exec i s = .next { s with resp := some (faultWord .notLive) }

/-- A voice operation: NotLive, then VoiceIndexFault, and nothing else changes (R229). -/
def FaultsVoice (i : Nat → Instr) : Prop :=
  ∀ (s : State) (n : Nat),
    (s.live = false → exec (i n) s = .next { s with resp := some (faultWord .notLive) }) ∧
    (s.live = true → s.nVoices ≤ n →
      exec (i n) s = .next { s with resp := some (faultWord .voiceIndexFault) })

/-- The rule of a voice register write: its words, its faults, and its whole effect: the register of
voice n, and the response 0. -/
def WritesVoice {k : Nat} (op : BitVec 8) (i : Nat → BitVec k → Instr)
    (operand : BitVec k → Word32) (f : BitVec k → Voice → Voice) : Prop :=
  ∀ imm : BitVec k,
    (∀ idx : BitVec 8, DecodesTo op idx (operand imm) (i idx.toNat imm)) ∧
    FaultsVoice (i · imm) ∧
    ∀ (s : State) (n : Nat) (v : Voice), s.live = true → s.voices[n]? = some v →
      exec (i n imm) s
        = .next { s with voices := s.voices.set n (f imm v), resp := some (okWord 0) }

/-- The rule of a voice register read: its words, its faults, and its whole effect: the response. -/
def ReadsVoice (op : BitVec 8) (i : Nat → Instr) (value : Voice → Word32) : Prop :=
  (∀ idx : BitVec 8, DecodesTo op idx 0 (i idx.toNat)) ∧
  FaultsVoice i ∧
  ∀ (s : State) (n : Nat) (v : Voice), s.live = true → s.voices[n]? = some v →
    exec (i n) s = .next { s with resp := some (okWord (value v)) }

/-- The rule of a global register write: its words, its fault, and its whole effect. -/
def WritesGlobal {k : Nat} (op : BitVec 8) (i : BitVec k → Instr) (operand : BitVec k → Word32)
    (f : BitVec k → State → State) : Prop :=
  ∀ imm : BitVec k,
    DecodesTo op 0 (operand imm) (i imm) ∧
    FaultsNotLive (i imm) ∧
    ∀ s : State, s.live = true → exec (i imm) s = .next { f imm s with resp := some (okWord 0) }

/-- The rule of a global register read: its word, its fault, and its whole effect. -/
def ReadsGlobal (op : BitVec 8) (i : Instr) (value : State → Word32) : Prop :=
  DecodesTo op 0 0 i ∧
  FaultsNotLive i ∧
  ∀ s : State, s.live = true → exec i s = .next { s with resp := some (okWord (value s)) }

/-- After the write the read answers with this value. -/
def ReadsBack (write read : Instr) (value : Word32) (s : State) : Prop :=
  ∃ t u, exec write s = .next t ∧ exec read t = .next u ∧ u.resp = some (okWord value)

/-- The registers whose addresses the reverb network writes (R185, R191). -/
def reverbTargets : List RevReg :=
  [mLSAME, mRSAME, mLDIFF, mRDIFF, mLAPF1, mRAPF1, mLAPF2, mRAPF2]

/-- The addresses at which STEP stores 16 bits when the Reverb Unit runs (R197). -/
def reverbStores (s : State) : List Nat := reverbTargets.map fun m => revAddr s (disp s m)

/-- The ten volume registers (R104). -/
def reverbVolumes : List RevReg :=
  [vIIR, vCOMB1, vCOMB2, vCOMB3, vCOMB4, vWALL, vAPF1, vAPF2, vLIN, vRIN]

/-- The displacements the Reverb Unit uses: `8*r`, `8*r - 2` and `8*m - 8*d` (R68). -/
def IsDisplacement (d : Int) : Prop :=
  ∃ m n : U16, d = 8 * m.toNat ∨ d = 8 * m.toNat - 2 ∨ d = 8 * m.toNat - 8 * n.toNat

/-! The rules of the Reverb Unit, written from spec files 20 and 42 apart from the machine's own functions:
registers by their numbers of R104, addresses and accesses by R64 and R68, arithmetic by R182. -/

/-- `sat16` (R14). -/
def satRule (x : Int) : S16 := BitVec.ofInt 16 (max (-32768) (min 32767 x))

/-- `mul` (R182). -/
def mulRule (a v : S16) : S16 := satRule (a.toInt * v.toInt / 32768)

/-- `add` (R182). -/
def addRule (a b : S16) : S16 := satRule (a.toInt + b.toInt)

/-- `sub` (R182). -/
def subRule (a b : S16) : S16 := satRule (a.toInt - b.toInt)

/-- `RevAddr(d)` (R67, R68). -/
def addrRule (s : State) (d : Int) : Nat :=
  8 * s.rbase.toNat + ((s.rcur + d) % ((s.ramSize : Int) - 8 * s.rbase.toNat)).toNat

/-- `RevRead(d)` (R64, R68). -/
def readRule (s : State) (m : Memory) (d : Int) : S16 :=
  Memory.read m (addrRule s d + 1) ++ Memory.read m (addrRule s d)

/-- `RevWrite(d, x)` (R63, R64, R68). -/
def writeRule (s : State) (m : Memory) (d : Int) (x : S16) : Memory :=
  Memory.write (Memory.write m (addrRule s d) (x.extractLsb' 0 8)) (addrRule s d + 1)
    (x.extractLsb' 8 8)

/-- `Reflect(inp, src, dst)` (R185): vWALL is register 7, vIIR register 2. -/
def reflectRule (s : State) (inp : S16) (src dst : Fin 32) (m : Memory) : Memory :=
  let x := readRule s m (8 * (s.rr.get src).toNat)
  let p := readRule s m (8 * (s.rr.get dst).toNat - 2)
  let t := subRule (addRule inp (mulRule x (s.rr.get 7))) p
  writeRule s m (8 * (s.rr.get dst).toNat) (addRule (mulRule t (s.rr.get 2)) p)

/-- `Comb(k1, k2, k3, k4)` (R190): vCOMB1 to vCOMB4 are registers 3 to 6. -/
def combRule (s : State) (m : Memory) (k1 k2 k3 k4 : Fin 32) : S16 :=
  let tap := fun k gain => mulRule (readRule s m (8 * (s.rr.get k).toNat)) (s.rr.get gain)
  addRule (addRule (addRule (addRule 0 (tap k1 3)) (tap k2 4)) (tap k3 5)) (tap k4 6)

/-- `Apf(x, dst, off, gain)` (R191). -/
def apfRule (s : State) (x : S16) (dst off gain : Fin 32) (m : Memory) : Memory × S16 :=
  let f := readRule s m (8 * (s.rr.get dst).toNat - 8 * (s.rr.get off).toNat)
  let y := subRule x (mulRule f (s.rr.get gain))
  (writeRule s m (8 * (s.rr.get dst).toNat) y, addRule (mulRule y (s.rr.get gain)) f)

/-- `ReverbProcess(inL, inR)` (R183, R184, R186 to R190, R192 to R197). -/
def reverbRule (inL inR : S16) (s : State) : State × Stereo :=
  if (s.ramSize : Int) - 8 * s.rbase.toNat ≤ 0 then (s, ⟨0, 0⟩)
  else
    let lin := mulRule inL (s.rr.get 30)
    let rin := mulRule inR (s.rr.get 31)
    let m := reflectRule s lin 16 10 s.ram
    let m := reflectRule s rin 17 11 m
    let m := reflectRule s lin 25 18 m
    let m := reflectRule s rin 24 19 m
    let lc := combRule s m 12 14 20 22
    let rc := combRule s m 13 15 21 23
    let la := apfRule s lc 26 0 8 m
    let ra := apfRule s rc 27 0 8 la.1
    let lb := apfRule s la.2 28 1 9 ra.1
    let rb := apfRule s ra.2 29 1 9 lb.1
    ({ s with
        ram := rb.1, rcur := ((s.rcur + 2) % ((s.ramSize : Int) - 8 * s.rbase.toNat)).toNat },
      ⟨mulRule lb.2 s.rvolL, mulRule rb.2 s.rvolR⟩)

/-- The state after a STEP of a live engine, by R210 to R218, with the sums over the voices. The answer of
the oracle is the next one lined up, or else a free value (log entry 6). -/
def stepRule (cfg : Config) (s : State) : State :=
  let polled := s.extEn && s.extCb
  let ext : Stereo := if polled then s.extIn.headD (Config.extIn s.extCalls) else ⟨0, 0⟩
  let xl := if s.extEn then ext.left.toInt * s.xvolL.toInt / 32768 else 0
  let xr := if s.extEn then ext.right.toInt * s.xvolR.toInt / 32768 else 0
  let outs := s.voices.map (voiceStep cfg s.ram (s.ramSize / 16))
  let sent := outs.filter fun o => o.voice.rsend
  let inL := (sent.map (·.left)).sum + if s.extReverbEn then xl else 0
  let inR := (sent.map (·.right)).sum + if s.extReverbEn then xr else 0
  let rev := reverbRule (sat16 inL) (sat16 inR) s
  let mixL := (outs.map (·.left)).sum + xl + if s.reverbEn then rev.2.left.toInt else 0
  let mixR := (outs.map (·.right)).sum + xr + if s.reverbEn then rev.2.right.toInt else 0
  let outL : S16 := if s.mute then 0 else sat16 (mixL * s.mvolL.toInt / 32768)
  let outR : S16 := if s.mute then 0 else sat16 (mixR * s.mvolR.toInt / 32768)
  { s with
    voices := outs.map (·.voice),
    ram := if s.reverbEn then rev.1.ram else s.ram,
    rcur := if s.reverbEn then rev.1.rcur else s.rcur,
    routL := if s.reverbEn then rev.2.left else s.routL,
    routR := if s.reverbEn then rev.2.right else s.routR,
    cycle := s.cycle + 1,
    extIn := if polled then s.extIn.tail else s.extIn,
    extCalls := if polled then s.extCalls + 1 else s.extCalls,
    resp := some (okWord (outL ++ outR)) }

/-- Two memories read the same at every address from `lo` on and below `hi`. -/
def SameBytes (m m' : Memory) (lo hi : Nat) : Prop :=
  ∀ a, lo ≤ a → a < hi → Memory.read m' a = Memory.read m a

/-- The bound of R167 on the ticks of a release from this level. -/
def releaseBound (d : Word32) (level : Nat) : Nat :=
  let cycles := 2 ^ (adsrRShift d - 11)
  let change := 8 * 2 ^ (11 - adsrRShift d)
  if adsrRMode d then level * cycles else (level + change - 1) / change * cycles

/-- The fall of an exponential decrease: `(step * level) >> 15`, rounded away from zero (R163). -/
def expFall (step level : Nat) : Nat := (step * level + 32767) / 32768

end Sys2Proof.Machine
end

