-- ==== Sys2Proof/Certificates/Slice0/Obligations.lean ====
section
/-! DEFINITION. The statements for the provers, from the numbered rules of spec/. Where a statement rests
on a choice of the model, its docstring names the log entry. -/

open Sys2Proof Sys2Proof.Machine

/-! Encoding (spec file 30). -/

/-- Every well-formed operation is read back from its command word. -/
def Obligations.DecodeEncodeRoundTrip : Prop :=
  ∀ i : Instr, i.WellFormed → decode (encode i) = .ok i

/-- A legal word has one reading, and no bit of it is dropped: it is the word of the operation read. -/
def Obligations.EncodeDecodeRoundTrip : Prop :=
  ∀ (w : Word) (i : Instr), decode w = .ok i → i.WellFormed ∧ encode i = w

/-- R93: the legal words are exactly those that a row of the opcode table selects, one row each; any
other word is answered with IllegalCommand, live or not, and no state of the engine changes (R301, R302).
That the word is taken from the queue of commands is the model's choice (log entry 1). -/
def Obligations.LegalWordsAreTableRows : Prop :=
  (∀ w : Word, (∃ i, decode w = .ok i) ↔ ∃ r ∈ opcodeRows, r.Selects w) ∧
  (∀ (w : Word) (r r' : OpcodeRow), r ∈ opcodeRows → r' ∈ opcodeRows →
    r.Selects w → r'.Selects w → r = r') ∧
  ∀ (s : State) (w : Word) (rest : List Word), s.cmds = w :: rest →
    (∀ r ∈ opcodeRows, ¬ r.Selects w) →
    step s = .next { s with cmds := rest, resp := some 0x0000000100000000 }

/-- Words of the spec's own table of test vectors, and what they stand for. -/
def Obligations.DecodedWords : Prop :=
  decode 0x0118000000080000 = .ok (.init 24 0x80000) ∧
  decode 0x0417000000000000 = .ok (.kon 23) ∧
  decode 0x100500000000FFFF = .ok (.wrVrate 5 0xFFFF) ∧
  decode 0x1503000000000003 = .ok (.wrVflags 3 3) ∧
  decode 0x2000000000008000 = .ok (.wrMvoll 0x8000) ∧
  decode 0x281F00000000FFFF = .ok (.wrRreg 31 0xFFFF) ∧
  decode 0x30FF0000FFFFFFFF = .ok (.ramWr 0xFF 0xFFFFFFFF) ∧
  decode 0xA800000000000000 = .ok (.rdRreg 0)

/-! The step and the faults (spec files 00, 60). -/

/-- A step runs the decoded operation; with no command pending nothing happens. The queue of commands
is the model's form of the host (log entries 1 and 3). -/
def Obligations.StepRunsDecodedInstruction : Prop :=
  (∀ s : State, s.cmds = [] → step s = .next s) ∧
  ∀ (s : State) (w : Word) (rest : List Word) (i : Instr), s.cmds = w :: rest →
    decode w = .ok i → step s = exec i { s with cmds := rest }

/-- R89, R301, and "No behaviour of this spec is `stuck`": every command word has a successor, in which it
is answered with a word whose bits 63 to 40 are zero, whose status is one of 0 to 6, and whose value is 0
when the status is a fault. That every word, a faulting one too, is taken from the queue of commands is the
model's choice (log entry 1). -/
def Obligations.EveryCommandIsAnswered : Prop :=
  ∀ (s : State) (w : Word) (rest : List Word), s.cmds = w :: rest →
    ∃ (t : State) (r : Word), step s = .next t ∧ t.cmds = rest ∧ t.resp = some r ∧
      r.toNat / 2 ^ 40 = 0 ∧ r.toNat / 2 ^ 32 % 256 ≤ 6 ∧
      (r.toNat / 2 ^ 32 % 256 ≠ 0 → r.toNat % 2 ^ 32 = 0)

/-- R300, R303 to R306, R308: an operation faults exactly where its rule says, in the order of
priority; a fault changes nothing but the response; and every operation that does not fault, each of
the 38, completes with status OK. -/
def Obligations.FaultsExactly : Prop :=
  ∀ (i : Instr) (s : State),
    (∀ f, faultOf i s = some f → exec i s = .next { s with resp := some (faultWord f) }) ∧
    (faultOf i s = none →
      ∃ (t : State) (value : Word32), exec i s = .next t ∧ t.resp = some (okWord value))

/-! Invariants (spec file 10). -/

/-- Every step keeps the invariant, in every instance: the ranges of R47, the canonical form and extent of
RAM, the legal parameters, the cursor in the work area, and nothing there while the engine is not live (R20).
That an engine that is not live holds the placeholders of State.reset is the model's choice (log entry 4). -/
def Obligations.InvariantKept : Prop :=
  (∀ s t : State, s.Inv → step s = .next t → t.Inv) ∧
  ∀ (cfg : Config) (s t : State), s.Inv → stepWith cfg s = .next t → t.Inv

/-- The state before the first INIT meets the invariant (log entry 4 names that state). -/
def Obligations.InvariantAtReset : Prop := State.reset.Inv

/-- R47: whatever commands the host issues and whatever its callback answers, at every point of the run
the listed fields are in range while the engine is live; (e) and (g), the int16 fields, hold by type. The
queue of commands, the state the run starts from and the list of answers are the model's choices (log
entries 1, 4 and 6). -/
def Obligations.RangesAlongEveryRun : Prop :=
  ∀ (cmds : List Word) (answers : List Stereo) (n : Nat) (t : State),
    Host.Core.run Sys2Proof.core n { State.reset with cmds := cmds, extIn := answers } = .next t →
    t.live = true →
    (∀ v ∈ t.voices, v.level ≤ 0x7FFF ∧ v.frac ≤ 0xFFF ∧ v.sidx ≤ 28 ∧
      (v.phase = .off → v.level = 0)) ∧
    t.rcur % 2 = 0 ∧
    (0 < (t.ramSize : Int) - 8 * t.rbase.toNat → (t.rcur : Int) < t.ramSize - 8 * t.rbase.toNat)

/-! Lifecycle (spec file 43). -/

/-- R48, R220: INIT with legal parameters leaves every field at its reset value. That it keeps `cmds`,
`extIn` and `extCalls`, the host's side, is the model's choice (log entries 1, 4 and 6). -/
def Obligations.InitResult : Prop :=
  (∀ (nv : BitVec 8) (size : Word32), DecodesTo 0x01 nv size (.init nv.toNat size.toNat)) ∧
  ∀ (nv size : Nat) (s : State),
    (s.live = true → exec (.init nv size) s = .next { s with resp := some (faultWord .alreadyLive) }) ∧
    (s.live = false → (24 < nv ∨ size < 16 ∨ size % 16 ≠ 0 ∨ 0xFFFFFFF0 < size) →
      exec (.init nv size) s = .next { s with resp := some (faultWord .configFault) }) ∧
    (s.live = false → nv ≤ 24 → 16 ≤ size → size % 16 = 0 → size ≤ 0xFFFFFFF0 →
      ∃ t, exec (.init nv size) s = .next t ∧
        t.live = true ∧ t.ramSize = size ∧ t.nVoices = nv ∧ nBlocks t = size / 16 ∧
        (∀ a, Memory.read t.ram a = 0) ∧
        (∀ v ∈ t.voices,
          v.rate = 0 ∧ v.volL = 0 ∧ v.volR = 0 ∧ v.adsr = 0 ∧ v.start = 0 ∧ v.cur = 0 ∧
          v.next = 0 ∧ v.loop = 0 ∧ (∀ j : Fin 4, v.hist.get j = 0) ∧
          (∀ j : Fin 28, v.pcm.get j = 0) ∧ v.sidx = 0 ∧ v.frac = 0 ∧ v.phase = .off ∧
          v.level = 0 ∧ v.envWait = 0 ∧ v.disabled = false ∧ v.rsend = false) ∧
        t.mvolL = 0 ∧ t.mvolR = 0 ∧ t.rvolL = 0 ∧ t.rvolR = 0 ∧ t.xvolL = 0 ∧ t.xvolR = 0 ∧
        t.mute = false ∧ t.reverbEn = false ∧ t.extEn = false ∧ t.extReverbEn = false ∧
        t.extCb = false ∧ t.cycle = 0 ∧ t.rbase = 0 ∧ t.rcur = 0 ∧ t.routL = 0 ∧ t.routR = 0 ∧
        (∀ k, t.rr.get k = 0) ∧ t.resp = some (okWord 0) ∧
        t.cmds = s.cmds ∧ t.extIn = s.extIn ∧ t.extCalls = s.extCalls)

/-- R221: DESTROY ends the engine's life; after it every operation but INIT faults with NotLive. That it
keeps `cmds`, `extIn` and `extCalls`, the host's side, is the model's choice (log entries 1, 4 and 6). -/
def Obligations.DestroyResult : Prop :=
  DecodesTo 0x02 0 0 .destroy ∧
  FaultsNotLive .destroy ∧
  ∀ s : State, s.live = true →
    ∃ t, exec .destroy s = .next t ∧ t.live = false ∧ t.resp = some (okWord 0) ∧
      t.cmds = s.cmds ∧ t.extIn = s.extIn ∧ t.extCalls = s.extCalls ∧
      ∀ i : Instr, (∀ nv size, i ≠ .init nv size) →
        exec i t = .next { t with resp := some (faultWord .notLive) }

/-- R221, "nothing survives a DESTROY": after DESTROY and INIT two engines that faced the same host are
the same state, whatever they were before. The host's side as fields is the model's (log entries 1 and 6). -/
def Obligations.NothingSurvivesDestroy : Prop :=
  ∀ (s s' : State) (nv size : Nat), s.live = true → s'.live = true →
    nv ≤ 24 → 16 ≤ size → size % 16 = 0 → size ≤ 0xFFFFFFF0 →
    s.cmds = s'.cmds → s.extIn = s'.extIn → s.extCalls = s'.extCalls →
    ∃ t, runOps [.destroy, .init nv size] s = .next t ∧
      runOps [.destroy, .init nv size] s' = .next t

/-! Triggers (spec file 41). -/

/-- R141: KON restarts the voice and leaves its host-written registers; twice is once. -/
def Obligations.KonResult : Prop :=
  (∀ idx : BitVec 8, DecodesTo 0x04 idx 0 (.kon idx.toNat)) ∧
  FaultsVoice .kon ∧
  ∀ (s : State) (n : Nat) (v : Voice), s.live = true → s.voices[n]? = some v →
    ∃ w t, exec (.kon n) s = .next t ∧
      t = { s with voices := s.voices.set n w, resp := some (okWord 0) } ∧
      w.phase = .attack ∧ w.level = 0 ∧ w.envWait = 0 ∧
      w.cur = v.start.toNat ∧ w.next = v.start.toNat ∧ w.loop = v.start.toNat ∧
      w.sidx = 28 ∧ w.frac = 0 ∧ (∀ j : Fin 4, w.hist.get j = 0) ∧
      (∀ j : Fin 28, w.pcm.get j = 0) ∧
      w.rate = v.rate ∧ w.volL = v.volL ∧ w.volR = v.volR ∧ w.adsr = v.adsr ∧
      w.start = v.start ∧ w.disabled = v.disabled ∧ w.rsend = v.rsend ∧
      exec (.kon n) t = .next t

/-- R142: KOFF releases a voice that is not Off, and changes nothing else. -/
def Obligations.KoffResult : Prop :=
  (∀ idx : BitVec 8, DecodesTo 0x05 idx 0 (.koff idx.toNat)) ∧
  FaultsVoice .koff ∧
  ∀ (s : State) (n : Nat) (v : Voice), s.live = true → s.voices[n]? = some v →
    (v.phase = .off → exec (.koff n) s = .next { s with resp := some (okWord 0) }) ∧
    (v.phase ≠ .off →
      exec (.koff n) s = .next { s with
        voices := s.voices.set n { v with phase := .release, envWait := 0 },
        resp := some (okWord 0) })

/-! Registers (spec file 44). -/

/-- R230 to R235: each voice register write stores its operand in its register of voice n. -/
def Obligations.VoiceRegisterWrites : Prop :=
  WritesVoice 0x10 .wrVrate (fun x => x.setWidth 32) (fun x v => { v with rate := x }) ∧
  WritesVoice 0x11 .wrVvoll (fun x => x.setWidth 32) (fun x v => { v with volL := x }) ∧
  WritesVoice 0x12 .wrVvolr (fun x => x.setWidth 32) (fun x v => { v with volR := x }) ∧
  WritesVoice 0x13 .wrVadsr (fun x => x) (fun x v => { v with adsr := x }) ∧
  WritesVoice 0x14 .wrVstart (fun x => x) (fun x v => { v with start := x }) ∧
  WritesVoice 0x15 .wrVflags (fun x => x.setWidth 32)
    (fun x v => { v with disabled := decide (x.toNat % 2 = 1), rsend := decide (2 ≤ x.toNat) })

/-- R237 to R242: each of the six volume writes stores its operand. -/
def Obligations.VolumeWrites : Prop :=
  WritesGlobal 0x20 .wrMvoll (fun x => x.setWidth 32) (fun x s => { s with mvolL := x }) ∧
  WritesGlobal 0x21 .wrMvolr (fun x => x.setWidth 32) (fun x s => { s with mvolR := x }) ∧
  WritesGlobal 0x22 .wrRvoll (fun x => x.setWidth 32) (fun x s => { s with rvolL := x }) ∧
  WritesGlobal 0x23 .wrRvolr (fun x => x.setWidth 32) (fun x s => { s with rvolR := x }) ∧
  WritesGlobal 0x24 .wrXvoll (fun x => x.setWidth 32) (fun x s => { s with xvolL := x }) ∧
  WritesGlobal 0x25 .wrXvolr (fun x => x.setWidth 32) (fun x s => { s with xvolR := x })

/-- R243 to R246: WR_CTRL writes the four flags, WR_RBASE the base and a zero cursor, WR_RREG one reverb
register (an index of 32 or more is no command), SET_EXTCB the callback bit. -/
def Obligations.ControlWrites : Prop :=
  WritesGlobal 0x26 .wrCtrl (fun x => x.setWidth 32) (fun x s =>
    { s with
      mute := decide (x.toNat % 2 = 1), reverbEn := decide (x.toNat / 2 % 2 = 1),
      extEn := decide (x.toNat / 4 % 2 = 1), extReverbEn := decide (8 ≤ x.toNat) }) ∧
  WritesGlobal 0x27 .wrRbase (fun x => x) (fun x s => { s with rbase := x, rcur := 0 }) ∧
  (∀ k : Fin 32, ∀ x : U16,
    DecodesTo 0x28 (BitVec.ofNat 8 k.val) (x.setWidth 32) (.wrRreg k x) ∧
    FaultsNotLive (.wrRreg k x) ∧
    ∀ s : State, s.live = true → ∃ t, exec (.wrRreg k x) s = .next t ∧
      t = { s with rr := t.rr, resp := some (okWord 0) } ∧ t.rr.get k = x ∧
      ∀ j, j ≠ k → t.rr.get j = s.rr.get j) ∧
  (∀ (idx : BitVec 8) (x : U16), 32 ≤ idx.toNat →
    decode ((0x28#8 ++ idx ++ 0#16) ++ (0#16 ++ x)) = .error .mustBeZero) ∧
  WritesGlobal 0x06 .setExtcb (fun x => x.setWidth 32)
    (fun x s => { s with extCb := decide (x.toNat = 1) })

/-- R250 to R255: each voice register read answers with its register and writes nothing. -/
def Obligations.VoiceRegisterReads : Prop :=
  ReadsVoice 0x90 .rdVrate (fun v => v.rate.setWidth 32) ∧
  ReadsVoice 0x91 .rdVvoll (fun v => v.volL.setWidth 32) ∧
  ReadsVoice 0x92 .rdVvolr (fun v => v.volR.setWidth 32) ∧
  ReadsVoice 0x93 .rdVadsr (fun v => v.adsr) ∧
  ReadsVoice 0x94 .rdVstart (fun v => v.start) ∧
  ReadsVoice 0x95 .rdVflags
    (fun v => (if v.disabled then 1 else 0) + 2 * (if v.rsend then 1 else 0))

/-- R257 to R265: each global register read answers with its register and writes nothing. -/
def Obligations.GlobalRegisterReads : Prop :=
  ReadsGlobal 0xA0 .rdMvoll (fun s => s.mvolL.setWidth 32) ∧
  ReadsGlobal 0xA1 .rdMvolr (fun s => s.mvolR.setWidth 32) ∧
  ReadsGlobal 0xA2 .rdRvoll (fun s => s.rvolL.setWidth 32) ∧
  ReadsGlobal 0xA3 .rdRvolr (fun s => s.rvolR.setWidth 32) ∧
  ReadsGlobal 0xA4 .rdXvoll (fun s => s.xvolL.setWidth 32) ∧
  ReadsGlobal 0xA5 .rdXvolr (fun s => s.xvolR.setWidth 32) ∧
  ReadsGlobal 0xA6 .rdCtrl (fun s =>
    (if s.mute then 1 else 0) + 2 * (if s.reverbEn then 1 else 0) + 4 * (if s.extEn then 1 else 0)
      + 8 * (if s.extReverbEn then 1 else 0)) ∧
  ReadsGlobal 0xA7 .rdRbase (fun s => s.rbase) ∧
  (∀ k : Fin 32,
    DecodesTo 0xA8 (BitVec.ofNat 8 k.val) 0 (.rdRreg k) ∧
    FaultsNotLive (.rdRreg k) ∧
    ∀ s : State, s.live = true →
      exec (.rdRreg k) s = .next { s with resp := some (okWord ((s.rr.get k).setWidth 32)) }) ∧
  (∀ idx : BitVec 8, 32 ≤ idx.toNat → decode ((0xA8#8 ++ idx ++ 0#16) ++ 0#32) = .error .mustBeZero)

/-- Every register reads back as it was written. -/
def Obligations.ReadAfterWrite : Prop :=
  ∀ s : State, s.live = true →
    (∀ n, n < s.nVoices →
      (∀ x, ReadsBack (.wrVrate n x) (.rdVrate n) (x.setWidth 32) s) ∧
      (∀ x, ReadsBack (.wrVvoll n x) (.rdVvoll n) (x.setWidth 32) s) ∧
      (∀ x, ReadsBack (.wrVvolr n x) (.rdVvolr n) (x.setWidth 32) s) ∧
      (∀ x, ReadsBack (.wrVadsr n x) (.rdVadsr n) x s) ∧
      (∀ x, ReadsBack (.wrVstart n x) (.rdVstart n) x s) ∧
      (∀ x, ReadsBack (.wrVflags n x) (.rdVflags n) (x.setWidth 32) s)) ∧
    (∀ x, ReadsBack (.wrMvoll x) .rdMvoll (x.setWidth 32) s) ∧
    (∀ x, ReadsBack (.wrMvolr x) .rdMvolr (x.setWidth 32) s) ∧
    (∀ x, ReadsBack (.wrRvoll x) .rdRvoll (x.setWidth 32) s) ∧
    (∀ x, ReadsBack (.wrRvolr x) .rdRvolr (x.setWidth 32) s) ∧
    (∀ x, ReadsBack (.wrXvoll x) .rdXvoll (x.setWidth 32) s) ∧
    (∀ x, ReadsBack (.wrXvolr x) .rdXvolr (x.setWidth 32) s) ∧
    (∀ x, ReadsBack (.wrCtrl x) .rdCtrl (x.setWidth 32) s) ∧
    (∀ x, ReadsBack (.wrRbase x) .rdRbase x s) ∧
    (∀ k x, ReadsBack (.wrRreg k x) (.rdRreg k) (x.setWidth 32) s) ∧
    (∀ b a, a < s.ramSize → ReadsBack (.ramWr b a) (.ramRd a) (b.setWidth 32) s)

/-! RAM (spec files 20, 44). -/

/-- R270: RAM_WR stores one byte inside RAM and faults outside it. -/
def Obligations.RamWriteResult : Prop :=
  (∀ (b : Byte) (a : Word32), DecodesTo 0x30 b a (.ramWr b a.toNat)) ∧
  ∀ (b : Byte) (addr : Nat),
    FaultsNotLive (.ramWr b addr) ∧
    ∀ s : State, s.live = true →
      (s.ramSize ≤ addr →
        exec (.ramWr b addr) s = .next { s with resp := some (faultWord .ramAddressFault) }) ∧
      (addr < s.ramSize → ∃ t, exec (.ramWr b addr) s = .next t ∧
        t = { s with ram := t.ram, resp := some (okWord 0) } ∧
        Memory.read t.ram addr = b ∧
        ∀ a, a ≠ addr → Memory.read t.ram a = Memory.read s.ram a)

/-- R271: RAM_RD answers with one byte inside RAM and faults outside it; it writes nothing. -/
def Obligations.RamReadResult : Prop :=
  (∀ a : Word32, DecodesTo 0x31 0 a (.ramRd a.toNat)) ∧
  ∀ addr : Nat,
    FaultsNotLive (.ramRd addr) ∧
    ∀ s : State, s.live = true →
      (s.ramSize ≤ addr →
        exec (.ramRd addr) s = .next { s with resp := some (faultWord .ramAddressFault) }) ∧
      (addr < s.ramSize →
        exec (.ramRd addr) s
          = .next { s with resp := some (okWord ((Memory.read s.ram addr).setWidth 32)) })

/-- R113: LOAD_BYTES stores its bytes from its address on and nothing elsewhere. -/
def Obligations.LoadBytesStores : Prop :=
  ∀ (s : State) (a : Nat) (bs : List Byte), s.live = true → a + bs.length ≤ s.ramSize →
    ∃ t, runOps (pseudoLoadBytes a bs) s = .next t ∧
      (∀ j (h : j < bs.length), Memory.read t.ram (a + j) = bs[j]) ∧
      (∀ b, b < a ∨ a + bs.length ≤ b → Memory.read t.ram b = Memory.read s.ram b)

/-- R49: an operation writes no state but that of its row. -/
def Obligations.AccessMatrix : Prop :=
  ∀ (i : Instr) (s t : State) (p : Part), exec i s = .next t → mayWrite i p = false →
    samePart s t p

/-- R61, R66, R69: in a live engine that meets the invariant, every block fetch and every reverb access is
inside RAM, the reverb ones at even addresses inside the work area. So the Reverb Unit gives the same on two
RAMs that agree on the work area, and touches no other byte; and STEP, in every instance, gives the same on
two RAMs that agree below RAMSIZE. -/
def Obligations.EngineAccessesInRange : Prop :=
  ∀ s : State, s.Inv → s.live = true →
    (∀ a : Nat, 16 * (a % nBlocks s) + 15 < s.ramSize) ∧
    (0 < waSize s → ∀ d, IsDisplacement d →
      revAddr s d % 2 = 0 ∧ 8 * s.rbase.toNat ≤ revAddr s d ∧ revAddr s d + 2 ≤ s.ramSize) ∧
    (∀ (ram : Memory) (l r : S16), SameBytes s.ram ram (8 * s.rbase.toNat) s.ramSize →
      let p := reverbProcess l r s
      let q := reverbProcess l r { s with ram := ram }
      q.2 = p.2 ∧ q.1 = { p.1 with ram := q.1.ram } ∧
      SameBytes p.1.ram q.1.ram (8 * s.rbase.toNat) s.ramSize ∧
      ∀ a, a < 8 * s.rbase.toNat ∨ s.ramSize ≤ a → Memory.read q.1.ram a = Memory.read ram a) ∧
    ∀ (cfg : Config) (ram : Memory), SameBytes s.ram ram 0 s.ramSize →
      ∃ t u, execWith cfg .step s = .next t ∧ execWith cfg .step { s with ram := ram } = .next u ∧
        u = { t with ram := u.ram } ∧ SameBytes t.ram u.ram 0 s.ramSize ∧
        ∀ a, s.ramSize ≤ a → Memory.read u.ram a = Memory.read ram a

/-- R64: a 16-bit write by the Reverb Unit is seen by RAM_RD low byte first. -/
def Obligations.ReverbWriteReadByHost : Prop :=
  ∀ (s : State) (d : Int) (v : S16), s.Inv → s.live = true → 0 < waSize s → IsDisplacement d →
    let t := { s with ram := revWrite s s.ram d v }
    exec (.ramRd (revAddr s d)) t
      = .next { t with resp := some (okWord (BitVec.ofNat 32 (v.toNat % 256))) } ∧
    exec (.ramRd (revAddr s d + 1)) t
      = .next { t with resp := some (okWord (BitVec.ofNat 32 (v.toNat / 256))) } ∧
    revRead t t.ram d = v

/-! STEP (spec file 43). -/

/-- R210 to R218: STEP faults only on an engine that is not live, and its whole effect on a live one, for
the default instance and for every other (R11). The Reverb Unit is R197's sequence, with the registers by
their numbers of R104. The answer of the oracle is the next one lined up, or else a free value, and the
fields `extIn` and `extCalls` are the model's (log entry 6). -/
def Obligations.StepResult : Prop :=
  DecodesTo 0x03 0 0 .step ∧
  FaultsNotLive .step ∧
  (∀ s : State, s.live = true → exec .step s = .next (stepRule defaultConfig s)) ∧
  (∀ (cfg : Config) (s : State), s.live = true → execWith cfg .step s = .next (stepRule cfg s)) ∧
  ∀ (l r : S16) (s : State), reverbProcess l r s = reverbRule l r s

/-- R61, R197: STEP stores nowhere but at the eight addresses the network writes, and nowhere at all when
the Reverb Unit does not run or has no work area. -/
def Obligations.StepStoresOnlyAtReverbTargets : Prop :=
  ∀ s t : State, exec .step s = .next t →
    (s.reverbEn = false ∨ waSize s ≤ 0 → t.ram = s.ram) ∧
    ∀ a, (∀ b ∈ reverbStores s, a ≠ b ∧ a ≠ b + 1) → Memory.read t.ram a = Memory.read s.ram a

/-- R212: STEP calls the oracle once when EXT_EN and EXT_CB are set and not otherwise; no other operation
calls it. The call is counted by the model's own field (log entry 6). -/
def Obligations.OracleCalls : Prop :=
  ∀ (i : Instr) (s t : State), exec i s = .next t →
    (i = .step ∧ s.live = true ∧ s.extEn = true ∧ s.extCb = true →
      t.extCalls = s.extCalls + 1 ∧ t.extIn = s.extIn.tail) ∧
    (¬ (i = .step ∧ s.live = true ∧ s.extEn = true ∧ s.extCb = true) →
      t.extCalls = s.extCalls ∧ t.extIn = s.extIn)

/-- R217: MUTE replaces the output by (0, 0) and changes nothing else of STEP. -/
def Obligations.MuteOnlySilences : Prop :=
  ∀ s : State, s.live = true →
    ∃ t, exec .step { s with mute := false } = .next t ∧
      exec .step { s with mute := true }
        = .next { t with mute := true, resp := some (okWord 0) }

/-- R218: over any program that keeps the engine, CYCLE counts the STEPs. -/
def Obligations.CycleCountsSteps : Prop :=
  ∀ (prog : List Instr) (s : State), s.live = true → (∀ i ∈ prog, i ≠ .destroy) →
    ∃ t, runOps prog s = .next t ∧ t.live = true ∧ t.cycle = s.cycle + prog.count .step

/-- No response depends on CYCLE or on the ROUT left by earlier STEPs, in any instance (R41, R44). -/
def Obligations.CycleAndRoutAreHidden : Prop :=
  ∀ (s : State) (c : Nat) (l r : S16) (n : Nat),
    responses n { s with cycle := c, routL := l, routR := r } = responses n s ∧
    ∀ cfg : Config, responsesOf (stepWith cfg) n { s with cycle := c, routL := l, routR := r }
      = responsesOf (stepWith cfg) n s

/-! The Reverb Unit (spec file 42). -/

/-- R183: on a work area of zero or negative size the unit answers (0, 0) and changes nothing, and STEP
answers as with the reverb off. -/
def Obligations.ReverbDegrades : Prop :=
  ∀ s : State, waSize s ≤ 0 →
    (∀ l r, reverbProcess l r s = (s, ⟨0, 0⟩)) ∧
    (s.live = true → ∃ t u,
      exec .step { s with reverbEn := true } = .next t ∧
      exec .step { s with reverbEn := false } = .next u ∧
      t = { u with reverbEn := true, routL := 0, routR := 0 })

/-- R198: silence in, silence out: on a zero work area with a zero input, and with every volume zero. -/
def Obligations.ReverbSilence : Prop :=
  ∀ s : State, s.Inv → s.live = true → 0 < waSize s →
    ((∀ a, 8 * s.rbase.toNat ≤ a → a < s.ramSize → Memory.read s.ram a = 0) →
      (reverbProcess 0 0 s).2 = ⟨0, 0⟩ ∧
      ∀ a, Memory.read (reverbProcess 0 0 s).1.ram a = Memory.read s.ram a) ∧
    ((∀ k ∈ reverbVolumes, s.rr.get k = 0) → s.rvolL = 0 → s.rvolR = 0 →
      ∀ l r, (reverbProcess l r s).2 = ⟨0, 0⟩)

/-- R196: after any number of calls the cursor has advanced by two bytes a call, wrapped once and for all. -/
def Obligations.CursorAdvance : Prop :=
  ∀ (s : State) (ins : List Stereo), 0 < waSize s → (s.rcur : Int) < waSize s →
    ((ins.foldl (fun t p => (reverbProcess p.left p.right t).1) s).rcur : Int)
      = (s.rcur + 2 * ins.length) % waSize s

/-- R185, R196: a reflection stores its formula at its register's address and touches no other byte; and
what the address reads two bytes back after a call is what it read at the address before the cursor
moved. -/
def Obligations.ReflectionAndPreviousValue : Prop :=
  ∀ s : State, 0 < waSize s →
    (∀ (inp : S16) (d m : RevReg) (ram : Memory),
      let x := revRead s ram (disp s d)
      let p := revRead s ram (disp s m - 2)
      let t := subSat (addSat inp (mulSat x (vol s vWALL))) p
      let ram' := reflect s inp d m ram
      revRead s ram' (disp s m) = addSat (mulSat t (vol s vIIR)) p ∧
      ∀ a, a ≠ revAddr s (disp s m) → a ≠ revAddr s (disp s m) + 1 →
        Memory.read ram' a = Memory.read ram a) ∧
    ∀ (l r : S16) (m : RevReg),
      let t := (reverbProcess l r s).1
      revRead t t.ram (disp t m - 2) = revRead s t.ram (disp s m)

/-- R191: an all-pass stage stores its formula and answers with its formula. -/
def Obligations.AllPassResult : Prop :=
  ∀ (s : State) (x : S16) (m d v : RevReg) (ram : Memory),
    let f := revRead s ram (8 * ((s.rr.get m).toNat : Int) - 8 * (s.rr.get d).toNat)
    let y := subSat x (mulSat f (s.rr.get v))
    revRead s (allPass s x m d v ram).1 (8 * (s.rr.get m).toNat) = y ∧
    (allPass s x m d v ram).2 = addSat (mulSat y (s.rr.get v)) f ∧
    ∀ a, a ≠ revAddr s (8 * (s.rr.get m).toNat) → a ≠ revAddr s (8 * (s.rr.get m).toNat) + 1 →
      Memory.read (allPass s x m d v ram).1 a = Memory.read ram a

/-- R182: the network's arithmetic in exact integers; `mul` saturates at one pair only. -/
def Obligations.ReverbArithmetic : Prop :=
  ∀ a v : S16,
    ((mulSat a v).toInt
      = if a.toInt = -32768 ∧ v.toInt = -32768 then 32767 else a.toInt * v.toInt / 32768) ∧
    (addSat a v).toInt = max (-32768) (min 32767 (a.toInt + v.toInt)) ∧
    (subSat a v).toInt = max (-32768) (min 32767 (a.toInt - v.toInt))

/-! The voice (spec file 41). -/

/-- R140: in a live engine the phase of every voice moves along the listed edges only. -/
def Obligations.PhaseTransitions : Prop :=
  ∀ (i : Instr) (s t : State) (n : Nat) (v w : Voice), s.live = true → exec i s = .next t →
    s.voices[n]? = some v → t.voices[n]? = some w → phaseEdge i n v.phase w.phase = true

/-- R149: a disabled voice and an Off voice are silent and do not change. -/
def Obligations.SilentVoiceUntouched : Prop :=
  ∀ (cfg : Config) (ram : Memory) (blocks : Nat) (v : Voice), v.disabled = true ∨ v.phase = .off →
    voiceStep cfg ram blocks v = ⟨v, 0, 0⟩

/-- R150, R169 (e): the fraction and the boundaries of a step, at most four, one at native rate; a rate above
RATE_MAX steps as RATE_MAX. -/
def Obligations.PhaseAdvance : Prop :=
  (∀ v : Voice, v.frac ≤ 0xFFF →
    (advancePhase v).1.frac ≤ 0xFFF ∧ (advancePhase v).2 ≤ 4 ∧
    4096 * (advancePhase v).2 + (advancePhase v).1.frac = v.frac + min v.rate.toNat 0x4000 ∧
    (v.rate = 0x1000 → (advancePhase v).2 = 1 ∧ (advancePhase v).1 = v)) ∧
  ∀ (cfg : Config) (ram : Memory) (blocks : Nat) (v : Voice), 0x4000 < v.rate.toNat →
    let o := voiceStep cfg ram blocks { v with rate := 0x4000 }
    voiceStep cfg ram blocks v = { o with voice := { o.voice with rate := v.rate } }

/-- R151: over n boundaries a running voice consumes n samples, with at most one fetch on the way, and a
fetch that stops it ends the walk. -/
def Obligations.SampleBoundaries : Prop :=
  ∀ (cfg : Config) (ram : Memory) (blocks n : Nat) (v : Voice),
    v.phase ≠ .off → v.sidx ≤ 28 → n ≤ 28 →
    (v.sidx + n ≤ 28 → crossBoundaries cfg ram blocks n v = { v with sidx := v.sidx + n }) ∧
    (28 < v.sidx + n →
      let w := fetchBlock cfg ram blocks v
      crossBoundaries cfg ram blocks n v
        = if w.phase = .off then w else { w with sidx := v.sidx + n - 28 })

/-- R152: the fields of a voice after a block fetch, by the three flags of the block's second byte. -/
def Obligations.BlockFetchResult : Prop :=
  ∀ (cfg : Config) (ram : Memory) (blocks : Nat) (v : Voice),
    let a := v.next % blocks
    let d := decodeBlock cfg (Vector.ofFn fun j => Memory.read ram (16 * a + j.val)) v.pcm[26] v.pcm[27]
    let flags := (Memory.read ram (16 * a + 1)).toNat
    let ends := flags % 2 = 1
    let repeats := flags / 2 % 2 = 1
    let loop := if flags / 4 % 2 = 1 then a else v.loop
    fetchBlock cfg ram blocks v =
      { v with
        hist := #v[v.pcm[24], v.pcm[25], v.pcm[26], v.pcm[27]],
        pcm := d.pcm, cur := a, sidx := 0, loop := loop,
        next := if ends then loop else (a + 1) % blocks,
        level := if ends ∧ ¬ repeats then 0 else v.level,
        phase := if ends ∧ ¬ repeats then .off else v.phase,
        envWait := if ends ∧ ¬ repeats then 0 else v.envWait }

/-- R77: in one step a voice sees of RAM the sixteen bytes of its next block only, and none of them unless
it exhausts the current block. -/
def Obligations.StepReadsNextBlockOnly : Prop :=
  ∀ (cfg : Config) (ram ram' : Memory) (blocks : Nat) (v : Voice), v.frac ≤ 0xFFF → v.sidx ≤ 28 →
    (v.sidx + (v.frac + min v.rate.toNat 0x4000) / 4096 ≤ 28 ∨
      ∀ j, j < 16 → Memory.read ram (16 * (v.next % blocks) + j)
        = Memory.read ram' (16 * (v.next % blocks) + j)) →
    voiceStep cfg ram blocks v = voiceStep cfg ram' blocks v

/-- R155, R156: at rate zero a running voice that is not disabled only ticks its envelope; a silent window
gives silence in every instance. -/
def Obligations.RateZero : Prop :=
  ∀ (cfg : Config) (ram : Memory) (blocks : Nat) (v : Voice),
    v.disabled = false → v.phase ≠ .off → v.frac ≤ 0xFFF → v.rate = 0 →
    (voiceStep cfg ram blocks v).voice = envTick v ∧
    (1 ≤ v.sidx → v.sidx ≤ 28 → (∀ j : Fin 4, v.hist.get j = 0) → (∀ j : Fin 28, v.pcm.get j = 0) →
      (voiceStep cfg ram blocks v).left = 0 ∧ (voiceStep cfg ram blocks v).right = 0)

/-- R153, R154: the window is the four newest consumed samples, and the interpolator of the default instance
gives a value between the two newest, the older one at fraction 0. -/
def Obligations.Interpolation : Prop :=
  (∀ v : Voice, (∀ j : Fin 4, windowSample v j.val = v.hist.get j) ∧
    (∀ j : Fin 28, windowSample v (4 + j.val) = v.pcm.get j) ∧
    ∀ cfg : Config, 1 ≤ v.sidx → v.sidx ≤ 28 →
      interpolate cfg v = cfg.interp (windowSample v (4 + v.sidx - 4)) (windowSample v (4 + v.sidx - 3))
        (windowSample v (4 + v.sidx - 2)) (windowSample v (4 + v.sidx - 1)) v.frac) ∧
  ∀ (s3 s2 s1 s0 : S16) (frac : Nat), frac ≤ 0xFFF →
    let out := defaultConfig.interp s3 s2 s1 s0 frac
    out.toInt = s1.toInt + (s0.toInt - s1.toInt) * frac / 4096 ∧
    min s1.toInt s0.toInt ≤ out.toInt ∧ out.toInt ≤ max s1.toInt s0.toInt ∧
    (frac = 0 → out = s1)

/-- R148, R157, R158: the contribution of a voice: the interpolated sample scaled by the level after this
step's tick and then by each volume, floored; always in -32767..32767. -/
def Obligations.VoiceOutput : Prop :=
  ∀ (cfg : Config) (ram : Memory) (blocks : Nat) (v : Voice), v.Ok →
    let o := voiceStep cfg ram blocks v
    (-32767 ≤ o.left ∧ o.left ≤ 32767 ∧ -32767 ≤ o.right ∧ o.right ≤ 32767) ∧
    (v.disabled = false → v.phase ≠ .off →
      let acc := v.frac + min v.rate.toNat 0x4000
      let w := crossBoundaries cfg ram blocks (acc / 4096) { v with frac := acc % 4096 }
      (w.phase = .off → o = ⟨w, 0, 0⟩) ∧
      (w.phase ≠ .off →
        let e := (interpolate cfg w).toInt * (envTick w).level / 32768
        o = ⟨envTick w, e * v.volL.toInt / 32768, e * v.volR.toInt / 32768⟩ ∧
        -32767 ≤ e ∧ e ≤ 32766))

/-! The envelope (spec file 41). -/

/-- R100: the fields of the descriptor; bit 29 has no effect. -/
def Obligations.AdsrFields : Prop :=
  ∀ d : Word32,
    adsrSLevel d = d.toNat % 16 ∧
    adsrDShift d = d.toNat / 2 ^ 4 % 16 ∧
    adsrAStep d = d.toNat / 2 ^ 8 % 4 ∧
    adsrAShift d = d.toNat / 2 ^ 10 % 32 ∧
    adsrAMode d = decide (d.toNat / 2 ^ 15 % 2 = 1) ∧
    adsrRShift d = d.toNat / 2 ^ 16 % 32 ∧
    adsrRMode d = decide (d.toNat / 2 ^ 21 % 2 = 1) ∧
    adsrSStep d = d.toNat / 2 ^ 22 % 4 ∧
    adsrSShift d = d.toNat / 2 ^ 24 % 32 ∧
    adsrSDir d = decide (d.toNat / 2 ^ 30 % 2 = 1) ∧
    adsrSMode d = decide (d.toNat / 2 ^ 31 % 2 = 1) ∧
    ∀ p, envRow p (d ^^^ 0x20000000) = envRow p d ∧
      decayTarget (d ^^^ 0x20000000) = decayTarget d

/-- R160 to R166 for Attack: the level rises to at most 0x7FFF, where Decay begins. -/
def Obligations.AttackTick : Prop :=
  ∀ v : Voice, v.phase = .attack → v.envWait ≤ 1 →
    let level := min 0x7FFF (v.level + (7 - adsrAStep v.adsr) * 2 ^ (11 - adsrAShift v.adsr))
    let slow := if adsrAMode v.adsr = true ∧ 0x6000 < v.level then 4 else 1
    envTick v =
      if level = 0x7FFF then { v with level := level, phase := .decay, envWait := 0 }
      else { v with level := level, envWait := 2 ^ (adsrAShift v.adsr - 11) * slow }

/-- R160 to R166 for Decay: the level falls in proportion to itself, until the sustain level. -/
def Obligations.DecayTick : Prop :=
  ∀ v : Voice, v.phase = .decay → v.envWait ≤ 1 → v.level ≤ 0x7FFF →
    let level := v.level - expFall (8 * 2 ^ (11 - adsrDShift v.adsr)) v.level
    envTick v =
      if level ≤ (adsrSLevel v.adsr + 1) * 0x800 then
        { v with level := level, phase := .sustain, envWait := 0 }
      else { v with level := level, envWait := 2 ^ (adsrDShift v.adsr - 11) }

/-- R160 to R164 for Sustain, in its two directions and modes: it never ends by itself. -/
def Obligations.SustainTick : Prop :=
  ∀ v : Voice, v.phase = .sustain → v.envWait ≤ 1 → v.level ≤ 0x7FFF →
    let scaleUp := 2 ^ (11 - adsrSShift v.adsr)
    let wait := 2 ^ (adsrSShift v.adsr - 11)
    let fall := (8 - adsrSStep v.adsr) * scaleUp
    envTick v =
      if adsrSDir v.adsr = true then
        { v with
          level := v.level - if adsrSMode v.adsr = true then expFall fall v.level else fall,
          envWait := wait }
      else
        { v with
          level := min 0x7FFF (v.level + (7 - adsrSStep v.adsr) * scaleUp),
          envWait := if adsrSMode v.adsr = true ∧ 0x6000 < v.level then wait * 4 else wait }

/-- R160 to R166 for Release: the level falls to 0, where the voice becomes Off. -/
def Obligations.ReleaseTick : Prop :=
  ∀ v : Voice, v.phase = .release → v.envWait ≤ 1 → v.level ≤ 0x7FFF →
    let fall := 8 * 2 ^ (11 - adsrRShift v.adsr)
    let level := v.level - if adsrRMode v.adsr = true then expFall fall v.level else fall
    envTick v =
      if level = 0 then { v with level := 0, phase := .off, envWait := 0 }
      else { v with level := level, envWait := 2 ^ (adsrRShift v.adsr - 11) }

/-- R165: while a running voice waits, ticks only count down; a wait of 1 and a wait of 0 change the level at
the same tick. -/
def Obligations.EnvelopeWait : Prop :=
  ∀ v : Voice, v.phase ≠ .off →
    (∀ n, n < v.envWait → Nat.iterate envTick n v = { v with envWait := v.envWait - n }) ∧
    envTick { v with envWait := 1 } = envTick { v with envWait := 0 }

/-- R168: the trace of the fastest envelope after key on. -/
def Obligations.FastestEnvelope : Prop :=
  ∀ v : Voice, v.adsr = 0 →
    ((List.range 9).map fun n =>
        let w := Nat.iterate envTick n (keyOn v)
        (w.phase, w.level))
      = [(.attack, 0), (.attack, 0x3800), (.attack, 0x7000), (.decay, 0x7FFF), (.decay, 0x3FFF),
         (.decay, 0x1FFF), (.decay, 0x0FFF), (.sustain, 0x07FF), (.sustain, 0x3FFF)]

/-- R167: after KOFF an enabled voice is Off after at most the bound's number of STEPs, whatever the RAM and
the other voices do; a release from level 0 takes one STEP (R169 (c)); no bound exceeds 0x7FFF * 2^20. -/
def Obligations.BoundedRelease : Prop :=
  (∀ (s : State) (n k : Nat) (v : Voice), s.live = true → s.voices[n]? = some v →
    v.disabled = false → max 1 (releaseBound v.adsr v.level) ≤ k →
    ∃ t w, runOps (.koff n :: List.replicate k .step) s = .next t ∧
      t.voices[n]? = some w ∧ w.phase = .off) ∧
  ∀ (d : Word32) (level : Nat), level ≤ 0x7FFF → releaseBound d level ≤ 0x7FFF * 2 ^ 20

/-! The codec (spec file 40). -/

/-- R122: each sample is the residual plus the prediction from the two samples before it, saturated; the
history handed back is the last two samples and the flags byte is handed back undecoded. The table of the
default instance is that of R124, its weights zero beyond the fourth filter. -/
def Obligations.AdpcmRecurrence : Prop :=
  (∀ n : Nat, defaultConfig.filterTable.getD n (0, 0)
    = (if n = 1 then 60 else if n = 2 then 115 else if n = 3 then 98 else 0,
        if n = 2 then -52 else if n = 3 then -55 else 0)) ∧
  defaultConfig.filterTable.length = 4 ∧
  ∀ (cfg : Config) (blk : Vector Byte 16) (old new : S16),
    let d := decodeBlock cfg blk old new
    let shift := min (blk[0].toNat % 16) 12
    let f := cfg.filterTable.getD (blk[0].toNat / 16) (0, 0)
    let past : Nat → S16 := fun n =>
      if n = 0 then old else if n = 1 then new else d.pcm.toList.getD (n - 2) 0
    (∀ k : Fin 28,
      let byte := (blk.get ⟨2 + k.val / 2, by omega⟩).toNat
      let nib := if k.val % 2 = 1 then byte / 16 else byte % 16
      let t := (if 8 ≤ nib then (nib : Int) - 16 else nib) * 2 ^ (12 - shift)
      let p := (f.1 * (past (k.val + 1)).toInt + f.2 * (past k.val).toInt + 32) / 64
      (d.pcm.get k).toInt = max (-32768) (min 32767 (t + p))) ∧
    d.hist = (d.pcm[26], d.pcm[27]) ∧ d.flags = blk[1]

/-- R99, R126: the residual's range, and the two readings of the shift agree. -/
def Obligations.ResidualRange : Prop :=
  ∀ (blk : Vector Byte 16) (k : Fin 28),
    -8 ≤ (nibble blk k).toInt ∧ (nibble blk k).toInt ≤ 7 ∧ blockShift blk ≤ 12 ∧
    residual blk k = (nibble blk k).toInt * 2 ^ (12 - blockShift blk) ∧
    -32768 ≤ residual blk k ∧ residual blk k ≤ 28672 ∧
    residual blk k = ((nibble blk k ++ 0#12).sshiftRight (blockShift blk)).toInt

/-- R114: a voice that runs into the terminator T0, T1 goes on over it forever, its samples all zero. -/
def Obligations.TerminatorLoops : Prop :=
  ∀ (ram : Memory) (blocks a : Nat) (v : Voice), a + 1 < blocks →
    (∀ j (h : j < 16), Memory.read ram (16 * a + j) = terminator0[j]'(by simpa [terminator0])) →
    (∀ j (h : j < 16), Memory.read ram (16 * (a + 1) + j) = terminator1[j]'(by simpa [terminator1])) →
    v.next = a →
    ∀ n, 1 ≤ n →
      let w := Nat.iterate (fetchBlock defaultConfig ram blocks) n v
      (∀ k : Fin 28, w.pcm.get k = 0) ∧ w.loop = a ∧ w.phase = v.phase ∧ w.level = v.level ∧
        w.cur = (if n % 2 = 1 then a else a + 1) ∧ w.next = (if n % 2 = 1 then a + 1 else a)

/-! Save-state (spec file 44). -/

/-- R275: two live engines that hold the same persisted state, all voices Off, the same RAM, EXT_CB and zero
cursors, give the same responses to the same host for ever. RAM is asked to agree as a whole, which is
more than the rule asks for. In every instance. The host's side as fields is the model's (log entries 1, 2
and 6). -/
def Obligations.SaveStateRoundTrip : Prop :=
  ∀ s t : State, SamePersisted s t → ∀ n, responses n s = responses n t ∧
    ∀ cfg : Config, responsesOf (stepWith cfg) n s = responsesOf (stepWith cfg) n t
end

