-- ==== Sys2Proof/Laws/Arith.lean ====
section
/-! SUPPORT. The ranges of the arithmetic of spec file 00 (rules R14 and R17) and of the response words
(spec file 30, rule R89). -/

namespace Sys2Proof.Machine

theorem clamp_le (x lo hi : Int) (h : lo ≤ hi) : clamp x lo hi ≤ hi := by
  unfold clamp; omega

theorem le_clamp (x lo hi : Int) : lo ≤ clamp x lo hi := by
  unfold clamp; omega

/-- A value in range is not changed. -/
theorem clamp_of_mem (x lo hi : Int) (h : lo ≤ x) (h' : x ≤ hi) : clamp x lo hi = x := by
  unfold clamp; omega

theorem toInt_bounds (v : S16) : -32768 ≤ v.toInt ∧ v.toInt ≤ 32767 := by
  have h := BitVec.le_toInt (x := v)
  have h' := BitVec.toInt_lt (x := v)
  omega

/-- An integer in int16 range survives the store into 16 bits (R17: no wrap-around). -/
theorem toInt_toS16 (x : Int) (h : -32768 ≤ x) (h' : x ≤ 32767) : (toS16 x).toInt = x := by
  unfold toS16
  rw [BitVec.toInt_ofInt]
  have : (2 : Nat) ^ 16 = 65536 := rfl
  rw [this, Int.bmod_def]
  split <;> omega

/-- The stored value of `sat16(x)` is the clamped integer (R14). -/
@[simp] theorem toInt_sat16 (x : Int) : (sat16 x).toInt = clamp x (-32768) 32767 :=
  toInt_toS16 _ (le_clamp _ _ _) (clamp_le _ _ _ (by omega))

/-- Saturating the value of an int16 gives it back. -/
@[simp] theorem sat16_toInt (v : S16) : sat16 v.toInt = v := by
  apply BitVec.eq_of_toInt_eq
  rw [toInt_sat16]
  exact clamp_of_mem _ _ _ (toInt_bounds v).1 (toInt_bounds v).2

@[simp] theorem sat16_zero : sat16 0 = 0 := by decide

theorem asr_zero (n : Nat) : asr 0 n = 0 := by simp [asr]

@[simp] theorem scale_zero_left (v : S16) : scale 0 v = 0 := by simp [scale, asr_zero]

@[simp] theorem scale_zero_right (a : Int) : scale a 0 = 0 := by simp [scale, asr_zero]

theorem statusOf_append (a : BitVec 24) (b : BitVec 8) (v : Word32) :
    statusOf (a ++ b ++ v) = b := by
  unfold statusOf
  ext i hi
  rw [BitVec.getElem_extractLsb', BitVec.getLsbD_append, BitVec.getLsbD_append]
  simp [show ¬ 32 + i < 32 by omega, hi, BitVec.getLsbD_eq_getElem]

/-- The fields of an OK response (R89). -/
@[simp] theorem statusOf_okWord (v : Word32) : statusOf (okWord v) = 0 := statusOf_append _ _ _

@[simp] theorem valueOf_okWord (v : Word32) : valueOf (okWord v) = v := by
  unfold valueOf okWord
  exact BitVec.extractLsb'_append_eq_right

/-- The fields of a fault response (R89, R300). -/
@[simp] theorem statusOf_faultWord (f : Fault) : statusOf (faultWord f) = faultCode f := by
  cases f <;> decide

@[simp] theorem valueOf_faultWord (f : Fault) : valueOf (faultWord f) = 0 := by
  cases f <;> decide

/-- No fault code is the OK status (R301). -/
theorem faultCode_ne_zero (f : Fault) : faultCode f ≠ 0 := by
  cases f <;> decide

end Sys2Proof.Machine
end

