-- ==== Sys2Proof/Laws/Encoding.lean ====
section
/-! SUPPORT. The fields of a command word made from its fields (spec file 30, rule R85): cite these instead
of unfolding the bit positions. -/

namespace Sys2Proof

/-- The bits of an appended word, from position `n` on, are the upper part. -/
theorem extract_append_high {m n : Nat} (a : BitVec m) (b : BitVec n) :
    (a ++ b).extractLsb' n m = a := by
  ext i hi
  rw [BitVec.getElem_extractLsb', BitVec.getLsbD_append, if_neg (by omega)]
  simp [BitVec.getLsbD_eq_getElem, hi]

/-- A field of the upper part of an appended word. -/
theorem extract_append_above {m n k l : Nat} (a : BitVec m) (b : BitVec n) :
    (a ++ b).extractLsb' (n + l) k = a.extractLsb' l k := by
  ext i hi
  rw [BitVec.getElem_extractLsb', BitVec.getElem_extractLsb', BitVec.getLsbD_append,
    if_neg (by omega)]
  congr 1
  omega

/-- A zero upper part is a zero extension. -/
theorem zero_append {m n : Nat} (x : BitVec n) : 0#m ++ x = x.setWidth (m + n) := by
  apply BitVec.eq_of_toNat_eq
  rw [BitVec.toNat_append]
  simp
  rw [Nat.mod_eq_of_lt]
  exact lt_of_lt_of_le x.isLt (Nat.pow_le_pow_right (by omega) (by omega))

@[simp] theorem opField_fields (op idx : BitVec 8) (operand : Word32) :
    opField (op ++ idx ++ 0#16 ++ operand) = op := by
  unfold opField
  rw [show 56 = 32 + 24 from rfl, extract_append_above _ _,
    show 24 = 16 + 8 from rfl, extract_append_above _ _]
  exact extract_append_high op idx

@[simp] theorem idxField_fields (op idx : BitVec 8) (operand : Word32) :
    idxField (op ++ idx ++ 0#16 ++ operand) = idx := by
  unfold idxField
  rw [show 48 = 32 + 16 from rfl, extract_append_above _ _,
    show 16 = 16 + 0 from rfl, extract_append_above _ _]
  exact BitVec.extractLsb'_append_eq_right

@[simp] theorem rsvField_fields (op idx : BitVec 8) (operand : Word32) :
    rsvField (op ++ idx ++ 0#16 ++ operand) = 0 := by
  exact (extract_append_above (l := 0) _ _).trans BitVec.extractLsb'_append_eq_right

@[simp] theorem operandField_fields (op idx : BitVec 8) (operand : Word32) :
    operandField (op ++ idx ++ 0#16 ++ operand) = operand :=
  BitVec.extractLsb'_append_eq_right

/-- Decoding a word made of fields looks at the fields only. -/
theorem decode_fields (op idx : BitVec 8) (operand : Word32) :
    decode (op ++ idx ++ 0#16 ++ operand) = decodeFields op idx operand := by
  simp [decode]

theorem decode_mkWord (op idx : BitVec 8) (operand : Word32) :
    decode (mkWord op idx operand) = decodeFields op idx operand :=
  decode_fields op idx operand

end Sys2Proof
end

