-- ==== Sys2Proof/Laws/Memory.lean ====
section
/-! SUPPORT. The laws of SPU RAM: every operation keeps the canonical form, a read after a write to the
same address gives what was written, and a write leaves every other address alone. -/

namespace Sys2Proof.Machine

@[simp] theorem read_nil (a : Nat) : Memory.read [] a = Memory.fill := rfl

@[simp] theorem read_cons (c : Host.Cell) (m : Memory) (a : Nat) :
    Memory.read (c :: m) a = if c.1 = a then c.2 else Memory.read m a := rfl

theorem read_eq_fill_of_absent (m : Memory) (a : Nat) (h : ∀ c ∈ m, c.1 ≠ a) :
    Memory.read m a = Memory.fill := by
  induction m with
  | nil => rfl
  | cons c m ih =>
    have hc := h c (by simp)
    simp [hc, ih fun d hd => h d (by simp [hd])]

theorem read_filter_ne (m : Memory) (a b : Nat) (h : b ≠ a) :
    Memory.read (m.filter fun c => c.1 != a) b = Memory.read m b := by
  induction m with
  | nil => rfl
  | cons c m ih =>
    by_cases hc : c.1 = a
    · have : c.1 ≠ b := fun e => h (e ▸ hc)
      simp_all
    · simp [hc, ih]

theorem read_insertCell (m : Memory) (a : Nat) (v : Byte) (b : Nat) (h : ∀ c ∈ m, c.1 ≠ a) :
    Memory.read (Memory.insertCell a v m) b = if a = b then v else Memory.read m b := by
  induction m with
  | nil => rfl
  | cons c m ih =>
    have hc : c.1 ≠ a := h c (by simp)
    have ih := ih fun d hd => h d (by simp [hd])
    simp only [Memory.insertCell]
    split
    · rfl
    · rw [read_cons, ih, read_cons]
      by_cases hab : a = b
      · subst hab; simp [hc]
      · simp [hab]

theorem filter_absent (m : Memory) (a : Nat) : ∀ c ∈ m.filter (fun c => c.1 != a), c.1 ≠ a := by
  intro c hc
  have := (List.mem_filter.1 hc).2
  simpa using this

/-- What a read gives after a write: the spec of `Memory.write` (R62, R63). -/
theorem read_write (m : Memory) (a : Nat) (v : Byte) (b : Nat) :
    Memory.read (Memory.write m a v) b = if a = b then v else Memory.read m b := by
  unfold Memory.write
  have hab := filter_absent m a
  by_cases hv : v = Memory.fill
  · by_cases h : a = b
    · subst h
      simp only [hv, if_true]
      exact read_eq_fill_of_absent _ _ hab
    · simp [hv, h, read_filter_ne m a b (Ne.symm h)]
  · simp only [hv, if_false, read_insertCell _ _ _ _ hab]
    by_cases h : a = b
    · simp [h]
    · simp [h, read_filter_ne m a b (Ne.symm h)]

@[simp] theorem read_write_same (m : Memory) (a : Nat) (v : Byte) :
    Memory.read (Memory.write m a v) a = v := by simp [read_write]

theorem read_write_other (m : Memory) (a b : Nat) (v : Byte) (h : a ≠ b) :
    Memory.read (Memory.write m a v) b = Memory.read m b := by simp [read_write, h]

/-- What a byte read gives after a 16-bit write (R63, R64). -/
theorem read_write16 (m : Memory) (a : Nat) (v : BitVec 16) (b : Nat) :
    Memory.read (Memory.write16 m a v) b
      = if a + 1 = b then v.extractLsb' 8 8 else if a = b then v.extractLsb' 0 8
        else Memory.read m b := by
  simp [Memory.write16, read_write]

theorem read_write16_other (m : Memory) (a b : Nat) (v : BitVec 16) (h : b < a ∨ a + 1 < b) :
    Memory.read (Memory.write16 m a v) b = Memory.read m b := by
  rw [read_write16, if_neg (by omega), if_neg (by omega)]

@[simp] theorem read16_write16_same (m : Memory) (a : Nat) (v : BitVec 16) :
    Memory.read16 (Memory.write16 m a v) a = v := by
  simp only [Memory.read16, read_write16, if_true, if_neg (show ¬ a + 1 = a by omega)]
  ext i hi
  simp only [BitVec.getElem_append, BitVec.getElem_extractLsb']
  split <;> simp_all [BitVec.getLsbD_eq_getElem]

@[simp] theorem readBlock_getElem (m : Memory) (a j : Nat) (h : j < 16) :
    (Memory.readBlock m a)[j] = Memory.read m (a + j) := by
  simp [Memory.readBlock]

theorem mem_insertCell (m : Memory) (a : Nat) (v : Byte) (c : Host.Cell) :
    c ∈ Memory.insertCell a v m ↔ c = (a, v) ∨ c ∈ m := by
  induction m with
  | nil => simp [Memory.insertCell]
  | cons d m ih =>
    simp only [Memory.insertCell]
    split
    · simp
    · simp only [List.mem_cons, ih]
      tauto

theorem sorted_insertCell (m : Memory) (a : Nat) (v : Byte)
    (hs : m.Pairwise fun c d => c.1 < d.1) (ha : ∀ c ∈ m, c.1 ≠ a) :
    (Memory.insertCell a v m).Pairwise fun c d => c.1 < d.1 := by
  induction m with
  | nil => simp [Memory.insertCell]
  | cons d m ih =>
    have hd : d.1 ≠ a := ha d (by simp)
    rw [List.pairwise_cons] at hs
    simp only [Memory.insertCell]
    split
    · rename_i hlt
      refine List.pairwise_cons.2 ⟨?_, List.pairwise_cons.2 hs⟩
      intro c hc
      rcases List.mem_cons.1 hc with rfl | hc
      · exact hlt
      · exact lt_trans hlt (hs.1 c hc)
    · refine List.pairwise_cons.2 ⟨?_, ih hs.2 fun c hc => ha c (by simp [hc])⟩
      intro c hc
      rcases (mem_insertCell m a v c).1 hc with rfl | hc
      · simp only; omega
      · exact hs.1 c hc

/-- A write keeps the canonical form. -/
theorem wf_write (m : Memory) (a : Nat) (v : Byte) (h : Memory.wf m) :
    Memory.wf (Memory.write m a v) := by
  have hf : Memory.wf (m.filter fun c => c.1 != a) :=
    ⟨h.1.filter _, fun c hc => h.2 c (List.mem_filter.1 hc).1⟩
  unfold Memory.write
  by_cases hv : v = Memory.fill
  · simpa only [hv, if_true] using hf
  · simp only [hv, if_false]
    refine ⟨sorted_insertCell _ a v hf.1 (filter_absent m a), fun c hc => ?_⟩
    rcases (mem_insertCell _ a v c).1 hc with rfl | hc
    · exact hv
    · exact hf.2 c hc

/-- A 16-bit write keeps the canonical form. -/
theorem wf_write16 (m : Memory) (a : Nat) (v : BitVec 16) (h : Memory.wf m) :
    Memory.wf (Memory.write16 m a v) := wf_write _ _ _ (wf_write _ _ _ h)

/-- A write adds no address but its own. -/
theorem address_of_mem_write (m : Memory) (a : Nat) (v : Byte) (c : Host.Cell)
    (h : c ∈ Memory.write m a v) : c.1 = a ∨ c ∈ m := by
  unfold Memory.write at h
  by_cases hv : v = Memory.fill
  · simp only [hv, if_true] at h
    exact .inr (List.mem_filter.1 h).1
  · simp only [hv, if_false] at h
    rcases (mem_insertCell _ a v c).1 h with rfl | hc
    · exact .inl rfl
    · exact .inr (List.mem_filter.1 hc).1

/-- A 16-bit write adds no address but its own two. -/
theorem address_of_mem_write16 (m : Memory) (a : Nat) (v : BitVec 16) (c : Host.Cell)
    (h : c ∈ Memory.write16 m a v) : c.1 = a ∨ c.1 = a + 1 ∨ c ∈ m := by
  rcases address_of_mem_write _ _ _ _ h with h | h
  · exact .inr (.inl h)
  · rcases address_of_mem_write _ _ _ _ h with h | h
    · exact .inl h
    · exact .inr (.inr h)

/-- The memory of an engine on which nothing has been written has the canonical form. -/
theorem wf_nil : Memory.wf ([] : Memory) := by simp [Memory.wf]

end Sys2Proof.Machine
end

