-- ==== Sys2Proof/Laws/State.lean ====
section
/-! SUPPORT. One lemma per field for each named update of the state and of a voice, all true by rfl, so
that no later proof unfolds a record update. -/

namespace Sys2Proof.Machine

/-! `answered`: only the response changes. -/

@[simp] theorem answered_live (w : Word) (s : State) : (answered w s).live = s.live := rfl
@[simp] theorem answered_ramSize (w : Word) (s : State) : (answered w s).ramSize = s.ramSize := rfl
@[simp] theorem answered_ram (w : Word) (s : State) : (answered w s).ram = s.ram := rfl
@[simp] theorem answered_voices (w : Word) (s : State) : (answered w s).voices = s.voices := rfl
@[simp] theorem answered_mvolL (w : Word) (s : State) : (answered w s).mvolL = s.mvolL := rfl
@[simp] theorem answered_mvolR (w : Word) (s : State) : (answered w s).mvolR = s.mvolR := rfl
@[simp] theorem answered_rvolL (w : Word) (s : State) : (answered w s).rvolL = s.rvolL := rfl
@[simp] theorem answered_rvolR (w : Word) (s : State) : (answered w s).rvolR = s.rvolR := rfl
@[simp] theorem answered_xvolL (w : Word) (s : State) : (answered w s).xvolL = s.xvolL := rfl
@[simp] theorem answered_xvolR (w : Word) (s : State) : (answered w s).xvolR = s.xvolR := rfl
@[simp] theorem answered_mute (w : Word) (s : State) : (answered w s).mute = s.mute := rfl
@[simp] theorem answered_reverbEn (w : Word) (s : State) : (answered w s).reverbEn = s.reverbEn := rfl
@[simp] theorem answered_extEn (w : Word) (s : State) : (answered w s).extEn = s.extEn := rfl
@[simp] theorem answered_extReverbEn (w : Word) (s : State) : (answered w s).extReverbEn = s.extReverbEn := rfl
@[simp] theorem answered_extCb (w : Word) (s : State) : (answered w s).extCb = s.extCb := rfl
@[simp] theorem answered_cycle (w : Word) (s : State) : (answered w s).cycle = s.cycle := rfl
@[simp] theorem answered_rbase (w : Word) (s : State) : (answered w s).rbase = s.rbase := rfl
@[simp] theorem answered_rcur (w : Word) (s : State) : (answered w s).rcur = s.rcur := rfl
@[simp] theorem answered_routL (w : Word) (s : State) : (answered w s).routL = s.routL := rfl
@[simp] theorem answered_routR (w : Word) (s : State) : (answered w s).routR = s.routR := rfl
@[simp] theorem answered_rr (w : Word) (s : State) : (answered w s).rr = s.rr := rfl
@[simp] theorem answered_cmds (w : Word) (s : State) : (answered w s).cmds = s.cmds := rfl
@[simp] theorem answered_resp (w : Word) (s : State) : (answered w s).resp = some w := rfl
@[simp] theorem answered_extIn (w : Word) (s : State) : (answered w s).extIn = s.extIn := rfl
@[simp] theorem answered_extCalls (w : Word) (s : State) : (answered w s).extCalls = s.extCalls := rfl

/-! `setVoice`: only voice i changes. -/

@[simp] theorem setVoice_live (i : Nat) (v : Voice) (s : State) : (setVoice i v s).live = s.live := rfl
@[simp] theorem setVoice_ramSize (i : Nat) (v : Voice) (s : State) : (setVoice i v s).ramSize = s.ramSize := rfl
@[simp] theorem setVoice_ram (i : Nat) (v : Voice) (s : State) : (setVoice i v s).ram = s.ram := rfl
@[simp] theorem setVoice_voices (i : Nat) (v : Voice) (s : State) : (setVoice i v s).voices = s.voices.set i v := rfl
@[simp] theorem setVoice_mvolL (i : Nat) (v : Voice) (s : State) : (setVoice i v s).mvolL = s.mvolL := rfl
@[simp] theorem setVoice_mvolR (i : Nat) (v : Voice) (s : State) : (setVoice i v s).mvolR = s.mvolR := rfl
@[simp] theorem setVoice_rvolL (i : Nat) (v : Voice) (s : State) : (setVoice i v s).rvolL = s.rvolL := rfl
@[simp] theorem setVoice_rvolR (i : Nat) (v : Voice) (s : State) : (setVoice i v s).rvolR = s.rvolR := rfl
@[simp] theorem setVoice_xvolL (i : Nat) (v : Voice) (s : State) : (setVoice i v s).xvolL = s.xvolL := rfl
@[simp] theorem setVoice_xvolR (i : Nat) (v : Voice) (s : State) : (setVoice i v s).xvolR = s.xvolR := rfl
@[simp] theorem setVoice_mute (i : Nat) (v : Voice) (s : State) : (setVoice i v s).mute = s.mute := rfl
@[simp] theorem setVoice_reverbEn (i : Nat) (v : Voice) (s : State) : (setVoice i v s).reverbEn = s.reverbEn := rfl
@[simp] theorem setVoice_extEn (i : Nat) (v : Voice) (s : State) : (setVoice i v s).extEn = s.extEn := rfl
@[simp] theorem setVoice_extReverbEn (i : Nat) (v : Voice) (s : State) : (setVoice i v s).extReverbEn = s.extReverbEn := rfl
@[simp] theorem setVoice_extCb (i : Nat) (v : Voice) (s : State) : (setVoice i v s).extCb = s.extCb := rfl
@[simp] theorem setVoice_cycle (i : Nat) (v : Voice) (s : State) : (setVoice i v s).cycle = s.cycle := rfl
@[simp] theorem setVoice_rbase (i : Nat) (v : Voice) (s : State) : (setVoice i v s).rbase = s.rbase := rfl
@[simp] theorem setVoice_rcur (i : Nat) (v : Voice) (s : State) : (setVoice i v s).rcur = s.rcur := rfl
@[simp] theorem setVoice_routL (i : Nat) (v : Voice) (s : State) : (setVoice i v s).routL = s.routL := rfl
@[simp] theorem setVoice_routR (i : Nat) (v : Voice) (s : State) : (setVoice i v s).routR = s.routR := rfl
@[simp] theorem setVoice_rr (i : Nat) (v : Voice) (s : State) : (setVoice i v s).rr = s.rr := rfl
@[simp] theorem setVoice_cmds (i : Nat) (v : Voice) (s : State) : (setVoice i v s).cmds = s.cmds := rfl
@[simp] theorem setVoice_resp (i : Nat) (v : Voice) (s : State) : (setVoice i v s).resp = s.resp := rfl
@[simp] theorem setVoice_extIn (i : Nat) (v : Voice) (s : State) : (setVoice i v s).extIn = s.extIn := rfl
@[simp] theorem setVoice_extCalls (i : Nat) (v : Voice) (s : State) : (setVoice i v s).extCalls = s.extCalls := rfl

/-! `pushCommand`: only the command queue changes. -/

@[simp] theorem pushCommand_live (w : Word) (s : State) : (pushCommand w s).live = s.live := rfl
@[simp] theorem pushCommand_ramSize (w : Word) (s : State) : (pushCommand w s).ramSize = s.ramSize := rfl
@[simp] theorem pushCommand_ram (w : Word) (s : State) : (pushCommand w s).ram = s.ram := rfl
@[simp] theorem pushCommand_voices (w : Word) (s : State) : (pushCommand w s).voices = s.voices := rfl
@[simp] theorem pushCommand_mvolL (w : Word) (s : State) : (pushCommand w s).mvolL = s.mvolL := rfl
@[simp] theorem pushCommand_mvolR (w : Word) (s : State) : (pushCommand w s).mvolR = s.mvolR := rfl
@[simp] theorem pushCommand_rvolL (w : Word) (s : State) : (pushCommand w s).rvolL = s.rvolL := rfl
@[simp] theorem pushCommand_rvolR (w : Word) (s : State) : (pushCommand w s).rvolR = s.rvolR := rfl
@[simp] theorem pushCommand_xvolL (w : Word) (s : State) : (pushCommand w s).xvolL = s.xvolL := rfl
@[simp] theorem pushCommand_xvolR (w : Word) (s : State) : (pushCommand w s).xvolR = s.xvolR := rfl
@[simp] theorem pushCommand_mute (w : Word) (s : State) : (pushCommand w s).mute = s.mute := rfl
@[simp] theorem pushCommand_reverbEn (w : Word) (s : State) : (pushCommand w s).reverbEn = s.reverbEn := rfl
@[simp] theorem pushCommand_extEn (w : Word) (s : State) : (pushCommand w s).extEn = s.extEn := rfl
@[simp] theorem pushCommand_extReverbEn (w : Word) (s : State) : (pushCommand w s).extReverbEn = s.extReverbEn := rfl
@[simp] theorem pushCommand_extCb (w : Word) (s : State) : (pushCommand w s).extCb = s.extCb := rfl
@[simp] theorem pushCommand_cycle (w : Word) (s : State) : (pushCommand w s).cycle = s.cycle := rfl
@[simp] theorem pushCommand_rbase (w : Word) (s : State) : (pushCommand w s).rbase = s.rbase := rfl
@[simp] theorem pushCommand_rcur (w : Word) (s : State) : (pushCommand w s).rcur = s.rcur := rfl
@[simp] theorem pushCommand_routL (w : Word) (s : State) : (pushCommand w s).routL = s.routL := rfl
@[simp] theorem pushCommand_routR (w : Word) (s : State) : (pushCommand w s).routR = s.routR := rfl
@[simp] theorem pushCommand_rr (w : Word) (s : State) : (pushCommand w s).rr = s.rr := rfl
@[simp] theorem pushCommand_cmds (w : Word) (s : State) : (pushCommand w s).cmds = w :: s.cmds := rfl
@[simp] theorem pushCommand_resp (w : Word) (s : State) : (pushCommand w s).resp = s.resp := rfl
@[simp] theorem pushCommand_extIn (w : Word) (s : State) : (pushCommand w s).extIn = s.extIn := rfl
@[simp] theorem pushCommand_extCalls (w : Word) (s : State) : (pushCommand w s).extCalls = s.extCalls := rfl

/-! `setCtrl`: only the four control flags change. -/

@[simp] theorem setCtrl_live (imm : BitVec 4) (s : State) : (setCtrl imm s).live = s.live := rfl
@[simp] theorem setCtrl_ramSize (imm : BitVec 4) (s : State) : (setCtrl imm s).ramSize = s.ramSize := rfl
@[simp] theorem setCtrl_ram (imm : BitVec 4) (s : State) : (setCtrl imm s).ram = s.ram := rfl
@[simp] theorem setCtrl_voices (imm : BitVec 4) (s : State) : (setCtrl imm s).voices = s.voices := rfl
@[simp] theorem setCtrl_mvolL (imm : BitVec 4) (s : State) : (setCtrl imm s).mvolL = s.mvolL := rfl
@[simp] theorem setCtrl_mvolR (imm : BitVec 4) (s : State) : (setCtrl imm s).mvolR = s.mvolR := rfl
@[simp] theorem setCtrl_rvolL (imm : BitVec 4) (s : State) : (setCtrl imm s).rvolL = s.rvolL := rfl
@[simp] theorem setCtrl_rvolR (imm : BitVec 4) (s : State) : (setCtrl imm s).rvolR = s.rvolR := rfl
@[simp] theorem setCtrl_xvolL (imm : BitVec 4) (s : State) : (setCtrl imm s).xvolL = s.xvolL := rfl
@[simp] theorem setCtrl_xvolR (imm : BitVec 4) (s : State) : (setCtrl imm s).xvolR = s.xvolR := rfl
@[simp] theorem setCtrl_mute (imm : BitVec 4) (s : State) : (setCtrl imm s).mute = imm.getLsbD 0 := rfl
@[simp] theorem setCtrl_reverbEn (imm : BitVec 4) (s : State) : (setCtrl imm s).reverbEn = imm.getLsbD 1 := rfl
@[simp] theorem setCtrl_extEn (imm : BitVec 4) (s : State) : (setCtrl imm s).extEn = imm.getLsbD 2 := rfl
@[simp] theorem setCtrl_extReverbEn (imm : BitVec 4) (s : State) : (setCtrl imm s).extReverbEn = imm.getLsbD 3 := rfl
@[simp] theorem setCtrl_extCb (imm : BitVec 4) (s : State) : (setCtrl imm s).extCb = s.extCb := rfl
@[simp] theorem setCtrl_cycle (imm : BitVec 4) (s : State) : (setCtrl imm s).cycle = s.cycle := rfl
@[simp] theorem setCtrl_rbase (imm : BitVec 4) (s : State) : (setCtrl imm s).rbase = s.rbase := rfl
@[simp] theorem setCtrl_rcur (imm : BitVec 4) (s : State) : (setCtrl imm s).rcur = s.rcur := rfl
@[simp] theorem setCtrl_routL (imm : BitVec 4) (s : State) : (setCtrl imm s).routL = s.routL := rfl
@[simp] theorem setCtrl_routR (imm : BitVec 4) (s : State) : (setCtrl imm s).routR = s.routR := rfl
@[simp] theorem setCtrl_rr (imm : BitVec 4) (s : State) : (setCtrl imm s).rr = s.rr := rfl
@[simp] theorem setCtrl_cmds (imm : BitVec 4) (s : State) : (setCtrl imm s).cmds = s.cmds := rfl
@[simp] theorem setCtrl_resp (imm : BitVec 4) (s : State) : (setCtrl imm s).resp = s.resp := rfl
@[simp] theorem setCtrl_extIn (imm : BitVec 4) (s : State) : (setCtrl imm s).extIn = s.extIn := rfl
@[simp] theorem setCtrl_extCalls (imm : BitVec 4) (s : State) : (setCtrl imm s).extCalls = s.extCalls := rfl

/-! `withEngine`: the engine's own fields come from `e`, the interface's from `s`. -/

@[simp] theorem withEngine_live (e s : State) : (withEngine e s).live = e.live := rfl
@[simp] theorem withEngine_ramSize (e s : State) : (withEngine e s).ramSize = e.ramSize := rfl
@[simp] theorem withEngine_ram (e s : State) : (withEngine e s).ram = e.ram := rfl
@[simp] theorem withEngine_voices (e s : State) : (withEngine e s).voices = e.voices := rfl
@[simp] theorem withEngine_mvolL (e s : State) : (withEngine e s).mvolL = e.mvolL := rfl
@[simp] theorem withEngine_mvolR (e s : State) : (withEngine e s).mvolR = e.mvolR := rfl
@[simp] theorem withEngine_rvolL (e s : State) : (withEngine e s).rvolL = e.rvolL := rfl
@[simp] theorem withEngine_rvolR (e s : State) : (withEngine e s).rvolR = e.rvolR := rfl
@[simp] theorem withEngine_xvolL (e s : State) : (withEngine e s).xvolL = e.xvolL := rfl
@[simp] theorem withEngine_xvolR (e s : State) : (withEngine e s).xvolR = e.xvolR := rfl
@[simp] theorem withEngine_mute (e s : State) : (withEngine e s).mute = e.mute := rfl
@[simp] theorem withEngine_reverbEn (e s : State) : (withEngine e s).reverbEn = e.reverbEn := rfl
@[simp] theorem withEngine_extEn (e s : State) : (withEngine e s).extEn = e.extEn := rfl
@[simp] theorem withEngine_extReverbEn (e s : State) : (withEngine e s).extReverbEn = e.extReverbEn := rfl
@[simp] theorem withEngine_extCb (e s : State) : (withEngine e s).extCb = e.extCb := rfl
@[simp] theorem withEngine_cycle (e s : State) : (withEngine e s).cycle = e.cycle := rfl
@[simp] theorem withEngine_rbase (e s : State) : (withEngine e s).rbase = e.rbase := rfl
@[simp] theorem withEngine_rcur (e s : State) : (withEngine e s).rcur = e.rcur := rfl
@[simp] theorem withEngine_routL (e s : State) : (withEngine e s).routL = e.routL := rfl
@[simp] theorem withEngine_routR (e s : State) : (withEngine e s).routR = e.routR := rfl
@[simp] theorem withEngine_rr (e s : State) : (withEngine e s).rr = e.rr := rfl
@[simp] theorem withEngine_cmds (e s : State) : (withEngine e s).cmds = s.cmds := rfl
@[simp] theorem withEngine_resp (e s : State) : (withEngine e s).resp = s.resp := rfl
@[simp] theorem withEngine_extIn (e s : State) : (withEngine e s).extIn = s.extIn := rfl
@[simp] theorem withEngine_extCalls (e s : State) : (withEngine e s).extCalls = s.extCalls := rfl

/-! `keyOn` (R141). -/

@[simp] theorem keyOn_rate (v : Voice) : (keyOn v).rate = v.rate := rfl
@[simp] theorem keyOn_volL (v : Voice) : (keyOn v).volL = v.volL := rfl
@[simp] theorem keyOn_volR (v : Voice) : (keyOn v).volR = v.volR := rfl
@[simp] theorem keyOn_adsr (v : Voice) : (keyOn v).adsr = v.adsr := rfl
@[simp] theorem keyOn_start (v : Voice) : (keyOn v).start = v.start := rfl
@[simp] theorem keyOn_cur (v : Voice) : (keyOn v).cur = v.start.toNat := rfl
@[simp] theorem keyOn_next (v : Voice) : (keyOn v).next = v.start.toNat := rfl
@[simp] theorem keyOn_loop (v : Voice) : (keyOn v).loop = v.start.toNat := rfl
@[simp] theorem keyOn_hist (v : Voice) : (keyOn v).hist = Vector.replicate 4 0 := rfl
@[simp] theorem keyOn_pcm (v : Voice) : (keyOn v).pcm = Vector.replicate 28 0 := rfl
@[simp] theorem keyOn_sidx (v : Voice) : (keyOn v).sidx = 28 := rfl
@[simp] theorem keyOn_frac (v : Voice) : (keyOn v).frac = 0 := rfl
@[simp] theorem keyOn_phase (v : Voice) : (keyOn v).phase = .attack := rfl
@[simp] theorem keyOn_level (v : Voice) : (keyOn v).level = 0 := rfl
@[simp] theorem keyOn_envWait (v : Voice) : (keyOn v).envWait = 0 := rfl
@[simp] theorem keyOn_disabled (v : Voice) : (keyOn v).disabled = v.disabled := rfl
@[simp] theorem keyOn_rsend (v : Voice) : (keyOn v).rsend = v.rsend := rfl

/-! `stopVoice` (R152). -/

@[simp] theorem stopVoice_rate (v : Voice) : (stopVoice v).rate = v.rate := rfl
@[simp] theorem stopVoice_volL (v : Voice) : (stopVoice v).volL = v.volL := rfl
@[simp] theorem stopVoice_volR (v : Voice) : (stopVoice v).volR = v.volR := rfl
@[simp] theorem stopVoice_adsr (v : Voice) : (stopVoice v).adsr = v.adsr := rfl
@[simp] theorem stopVoice_start (v : Voice) : (stopVoice v).start = v.start := rfl
@[simp] theorem stopVoice_cur (v : Voice) : (stopVoice v).cur = v.cur := rfl
@[simp] theorem stopVoice_next (v : Voice) : (stopVoice v).next = v.next := rfl
@[simp] theorem stopVoice_loop (v : Voice) : (stopVoice v).loop = v.loop := rfl
@[simp] theorem stopVoice_hist (v : Voice) : (stopVoice v).hist = v.hist := rfl
@[simp] theorem stopVoice_pcm (v : Voice) : (stopVoice v).pcm = v.pcm := rfl
@[simp] theorem stopVoice_sidx (v : Voice) : (stopVoice v).sidx = v.sidx := rfl
@[simp] theorem stopVoice_frac (v : Voice) : (stopVoice v).frac = v.frac := rfl
@[simp] theorem stopVoice_phase (v : Voice) : (stopVoice v).phase = .off := rfl
@[simp] theorem stopVoice_level (v : Voice) : (stopVoice v).level = 0 := rfl
@[simp] theorem stopVoice_envWait (v : Voice) : (stopVoice v).envWait = 0 := rfl
@[simp] theorem stopVoice_disabled (v : Voice) : (stopVoice v).disabled = v.disabled := rfl
@[simp] theorem stopVoice_rsend (v : Voice) : (stopVoice v).rsend = v.rsend := rfl

/-! `setVoiceFlags` (R235). -/

@[simp] theorem setVoiceFlags_rate (imm : BitVec 2) (v : Voice) : (setVoiceFlags imm v).rate = v.rate := rfl
@[simp] theorem setVoiceFlags_volL (imm : BitVec 2) (v : Voice) : (setVoiceFlags imm v).volL = v.volL := rfl
@[simp] theorem setVoiceFlags_volR (imm : BitVec 2) (v : Voice) : (setVoiceFlags imm v).volR = v.volR := rfl
@[simp] theorem setVoiceFlags_adsr (imm : BitVec 2) (v : Voice) : (setVoiceFlags imm v).adsr = v.adsr := rfl
@[simp] theorem setVoiceFlags_start (imm : BitVec 2) (v : Voice) : (setVoiceFlags imm v).start = v.start := rfl
@[simp] theorem setVoiceFlags_cur (imm : BitVec 2) (v : Voice) : (setVoiceFlags imm v).cur = v.cur := rfl
@[simp] theorem setVoiceFlags_next (imm : BitVec 2) (v : Voice) : (setVoiceFlags imm v).next = v.next := rfl
@[simp] theorem setVoiceFlags_loop (imm : BitVec 2) (v : Voice) : (setVoiceFlags imm v).loop = v.loop := rfl
@[simp] theorem setVoiceFlags_hist (imm : BitVec 2) (v : Voice) : (setVoiceFlags imm v).hist = v.hist := rfl
@[simp] theorem setVoiceFlags_pcm (imm : BitVec 2) (v : Voice) : (setVoiceFlags imm v).pcm = v.pcm := rfl
@[simp] theorem setVoiceFlags_sidx (imm : BitVec 2) (v : Voice) : (setVoiceFlags imm v).sidx = v.sidx := rfl
@[simp] theorem setVoiceFlags_frac (imm : BitVec 2) (v : Voice) : (setVoiceFlags imm v).frac = v.frac := rfl
@[simp] theorem setVoiceFlags_phase (imm : BitVec 2) (v : Voice) : (setVoiceFlags imm v).phase = v.phase := rfl
@[simp] theorem setVoiceFlags_level (imm : BitVec 2) (v : Voice) : (setVoiceFlags imm v).level = v.level := rfl
@[simp] theorem setVoiceFlags_envWait (imm : BitVec 2) (v : Voice) : (setVoiceFlags imm v).envWait = v.envWait := rfl
@[simp] theorem setVoiceFlags_disabled (imm : BitVec 2) (v : Voice) : (setVoiceFlags imm v).disabled = imm.getLsbD 0 := rfl
@[simp] theorem setVoiceFlags_rsend (imm : BitVec 2) (v : Voice) : (setVoiceFlags imm v).rsend = imm.getLsbD 1 := rfl

/-! The reverb register file. -/

/-- What a reverb register reads after a write of one. -/
theorem vector_get_set {α : Type} {n : Nat} (v : Vector α n) (k j : Fin n) (x : α) :
    (v.set k.val x k.isLt).get j = if k = j then x else v.get j := by
  show (v.set k.val x k.isLt)[j.val] = if k = j then x else v[j.val]
  rw [Vector.getElem_set]
  simp [Fin.ext_iff]

end Sys2Proof.Machine
end

