-- ==== Sys2Proof/Laws/Ops.lean ====
section
/-! SUPPORT. For each shared operation, what it answers when its checks pass, and once and for all
everything it can do: cite these instead of unfolding the operation. -/

namespace Sys2Proof.Machine

/-- An answer is determined by its next state. -/
theorem next_inj {s t : State} (h : (Host.Outcome.next s : Answer) = .next t) : s = t := by
  cases h; rfl

theorem respond_eq (v : Word32) (s : State) : respond v s = .next (answered (okWord v) s) := rfl

theorem raise_eq (f : Fault) (s : State) : raise f s = .next (answered (faultWord f) s) := rfl

/-! The checks pass. -/

theorem ifLive_of_live {s : State} (k : Answer) (h : s.live = true) : ifLive s k = k := by
  simp [ifLive, h]

theorem withVoice_of_voice {s : State} {i : Nat} {v : Voice} (k : Voice → Answer)
    (h : s.live = true) (hv : s.voices[i]? = some v) : withVoice i s k = k v := by
  simp [withVoice, ifLive, h, hv]

theorem withAddress_of_lt {s : State} {a : Nat} (k : Answer) (h : s.live = true)
    (ha : a < s.ramSize) : withAddress a s k = k := by
  simp [withAddress, ifLive, h, ha]

theorem changeVoice_of_voice {s : State} {i : Nat} {v : Voice} (f : Voice → Voice)
    (h : s.live = true) (hv : s.voices[i]? = some v) :
    changeVoice i f s = .next (answered (okWord 0) (setVoice i (f v) s)) :=
  withVoice_of_voice _ h hv

theorem readVoice_of_voice {s : State} {i : Nat} {v : Voice} (f : Voice → Word32)
    (h : s.live = true) (hv : s.voices[i]? = some v) :
    readVoice i f s = .next (answered (okWord (f v)) s) :=
  withVoice_of_voice _ h hv

theorem changeGlobal_of_live {s : State} (f : State → State) (h : s.live = true) :
    changeGlobal f s = .next (answered (okWord 0) (f s)) :=
  ifLive_of_live _ h

theorem readGlobal_of_live {s : State} (f : State → Word32) (h : s.live = true) :
    readGlobal f s = .next (answered (okWord (f s)) s) :=
  ifLive_of_live _ h

/-! A check fails. -/

theorem ifLive_of_dead {s : State} (k : Answer) (h : s.live = false) :
    ifLive s k = .next (answered (faultWord .notLive) s) := by
  simp [ifLive, h, raise]

theorem withVoice_of_dead {s : State} {i : Nat} (k : Voice → Answer) (h : s.live = false) :
    withVoice i s k = .next (answered (faultWord .notLive) s) :=
  ifLive_of_dead _ h

theorem withVoice_of_no_voice {s : State} {i : Nat} (k : Voice → Answer) (h : s.live = true)
    (hi : s.nVoices ≤ i) :
    withVoice i s k = .next (answered (faultWord .voiceIndexFault) s) := by
  have : s.voices[i]? = none := List.getElem?_eq_none hi
  simp [withVoice, ifLive, h, this, raise]

theorem withAddress_of_dead {s : State} {a : Nat} (k : Answer) (h : s.live = false) :
    withAddress a s k = .next (answered (faultWord .notLive) s) :=
  ifLive_of_dead _ h

theorem withAddress_of_ge {s : State} {a : Nat} (k : Answer) (h : s.live = true)
    (ha : s.ramSize ≤ a) :
    withAddress a s k = .next (answered (faultWord .ramAddressFault) s) := by
  simp [withAddress, ifLive, h, Nat.not_lt.2 ha, raise]

/-! Everything an operation can do. -/

/-- The state is the one before with a fault response, and nothing else. -/
def Faulted (s t : State) : Prop := ∃ f, t = answered (faultWord f) s

theorem ifLive_cases {s t : State} {k : Answer} (h : ifLive s k = .next t) :
    Faulted s t ∨ (s.live = true ∧ k = .next t) := by
  cases hl : s.live
  · rw [ifLive_of_dead _ hl] at h
    exact .inl ⟨_, (next_inj h).symm⟩
  · rw [ifLive_of_live _ hl] at h
    exact .inr ⟨rfl, h⟩

theorem withVoice_cases {s t : State} {i : Nat} {k : Voice → Answer}
    (h : withVoice i s k = .next t) :
    Faulted s t ∨ ∃ v, s.live = true ∧ s.voices[i]? = some v ∧ k v = .next t := by
  rcases ifLive_cases h with h | ⟨hl, h⟩
  · exact .inl h
  · cases hv : s.voices[i]? with
    | none =>
      rw [hv] at h
      exact .inl ⟨_, (next_inj h).symm⟩
    | some v =>
      rw [hv] at h
      exact .inr ⟨v, hl, rfl, h⟩

theorem withAddress_cases {s t : State} {a : Nat} {k : Answer}
    (h : withAddress a s k = .next t) :
    Faulted s t ∨ (s.live = true ∧ a < s.ramSize ∧ k = .next t) := by
  rcases ifLive_cases h with h | ⟨hl, h⟩
  · exact .inl h
  · split at h
    · rename_i ha
      exact .inr ⟨hl, ha, h⟩
    · exact .inl ⟨_, (next_inj h).symm⟩

theorem changeVoice_cases {s t : State} {i : Nat} {f : Voice → Voice}
    (h : changeVoice i f s = .next t) :
    Faulted s t ∨ ∃ v, s.live = true ∧ s.voices[i]? = some v ∧
      t = answered (okWord 0) (setVoice i (f v) s) := by
  rcases withVoice_cases h with h | ⟨v, hl, hv, h⟩
  · exact .inl h
  · exact .inr ⟨v, hl, hv, (next_inj h).symm⟩

theorem readVoice_cases {s t : State} {i : Nat} {f : Voice → Word32}
    (h : readVoice i f s = .next t) :
    Faulted s t ∨ ∃ v, s.live = true ∧ s.voices[i]? = some v ∧ t = answered (okWord (f v)) s := by
  rcases withVoice_cases h with h | ⟨v, hl, hv, h⟩
  · exact .inl h
  · exact .inr ⟨v, hl, hv, (next_inj h).symm⟩

theorem changeGlobal_cases {s t : State} {f : State → State} (h : changeGlobal f s = .next t) :
    Faulted s t ∨ (s.live = true ∧ t = answered (okWord 0) (f s)) := by
  rcases ifLive_cases h with h | ⟨hl, h⟩
  · exact .inl h
  · exact .inr ⟨hl, (next_inj h).symm⟩

theorem readGlobal_cases {s t : State} {f : State → Word32} (h : readGlobal f s = .next t) :
    Faulted s t ∨ (s.live = true ∧ t = answered (okWord (f s)) s) := by
  rcases ifLive_cases h with h | ⟨hl, h⟩
  · exact .inl h
  · exact .inr ⟨hl, (next_inj h).symm⟩

theorem execInit_cases {s t : State} {nv size : Nat} (h : execInit nv size s = .next t) :
    Faulted s t ∨ (s.live = false ∧ legalParams nv size = true ∧
      t = answered (okWord 0) (initState nv size s)) := by
  unfold execInit at h
  by_cases hl : s.live = true
  · rw [if_pos hl] at h
    exact .inl ⟨_, (next_inj h).symm⟩
  · rw [if_neg hl] at h
    by_cases hp : legalParams nv size = true
    · rw [if_pos hp] at h
      exact .inr ⟨by simpa using hl, hp, (next_inj h).symm⟩
    · rw [if_neg hp] at h
      exact .inl ⟨_, (next_inj h).symm⟩

theorem execStepWith_cases {cfg : Config} {s t : State} (h : execStepWith cfg s = .next t) :
    Faulted s t ∨ (s.live = true ∧
      t = answered (okWord (stereoValue (stepFrame cfg (pollExt s).1 (pollExt s).2).2))
        (stepFrame cfg (pollExt s).1 (pollExt s).2).1) := by
  unfold execStepWith at h
  rcases ifLive_cases h with h | ⟨hl, h⟩
  · exact .inl h
  · simp only [respond_eq] at h
    exact .inr ⟨hl, (next_inj h).symm⟩

/-- A step takes the next word, if there is one, and faults or runs it. -/
theorem stepOf_cases {run : Instr → State → Answer} {s t : State} (h : stepOf run s = .next t) :
    (s.cmds = [] ∧ t = s) ∨
    ∃ w rest, s.cmds = w :: rest ∧
      ((∃ e, decode w = .error e ∧
          t = answered (faultWord .illegalCommand) { s with cmds := rest }) ∨
        ∃ i, decode w = .ok i ∧ run i { s with cmds := rest } = .next t) := by
  unfold stepOf fetchCommand at h
  cases hc : s.cmds with
  | nil =>
    rw [hc] at h
    exact .inl ⟨rfl, (next_inj h).symm⟩
  | cons w rest =>
    rw [hc] at h
    dsimp only at h
    cases hd : decode w with
    | error e =>
      rw [hd] at h
      exact .inr ⟨w, rest, rfl, .inl ⟨e, hd, (next_inj h).symm⟩⟩
    | ok i =>
      rw [hd] at h
      exact .inr ⟨w, rest, rfl, .inr ⟨i, hd, h⟩⟩

theorem stepOf_of_illegal {run : Instr → State → Answer} {s : State} {w : Word} {rest : List Word}
    {e : Illegal} (h : s.cmds = w :: rest) (hw : decode w = .error e) :
    stepOf run s = raise .illegalCommand { s with cmds := rest } := by
  simp [stepOf, fetchCommand, h, hw]

@[simp] theorem runOpsOf_nil (run : Instr → State → Answer) (s : State) :
    runOpsOf run [] s = .next s := rfl

theorem runOpsOf_cons_of_next {run : Instr → State → Answer} {i : Instr} {is : List Instr}
    {s t : State} (h : run i s = .next t) : runOpsOf run (i :: is) s = runOpsOf run is t := by
  simp [runOpsOf, h]

@[simp] theorem responsesOf_zero (step : State → Answer) (s : State) : responsesOf step 0 s = [] := rfl

theorem responsesOf_succ_of_next {step : State → Answer} {s t : State} (n : Nat)
    (h : step s = .next t) : responsesOf step (n + 1) s = t.resp :: responsesOf step n t := by
  simp [responsesOf, h]

/-- No operation but STEP depends on the instance. -/
theorem execWith_of_ne_step (cfg : Config) {i : Instr} (s : State) (h : i ≠ .step) :
    execWith cfg i s = exec i s := by
  unfold execWith
  split
  · exact absurd rfl h
  · rfl

/-- The machine of the default instance is the machine. -/
theorem execWith_default : execWith defaultConfig = exec := by
  funext i s
  by_cases h : i = .step
  · subst h
    show execStepWith defaultConfig s = execStep s
    rw [execStep]
  · exact execWith_of_ne_step _ _ h

theorem stepWith_default : stepWith defaultConfig = step := by
  funext s
  rw [stepWith, execWith_default, step]

/-! The oracle and the steps inside STEP change only what is theirs. -/

/-- One oracle call: which answer, and what it consumes (R16). -/
theorem callExtIn_cases (s : State) :
    (s.extIn = [] ∧ callExtIn s = (Config.extIn s.extCalls, { s with extCalls := s.extCalls + 1 }))
    ∨ ∃ p rest, s.extIn = p :: rest ∧
      callExtIn s = (p, { s with extIn := rest, extCalls := s.extCalls + 1 }) := by
  unfold callExtIn
  split
  · exact .inl ⟨by assumption, rfl⟩
  · exact .inr ⟨_, _, by assumption, rfl⟩

/-- The oracle is called, or it is not (R212). -/
theorem pollExt_cases (s : State) :
    (s.extEn = true ∧ s.extCb = true ∧ pollExt s = callExtIn s)
    ∨ (¬ (s.extEn = true ∧ s.extCb = true) ∧ pollExt s = (⟨0, 0⟩, s)) := by
  unfold pollExt
  cases s.extEn <;> cases s.extCb <;> simp

/-- Polling the oracle changes nothing but the answers lined up and the count of calls. -/
theorem pollExt_state (s : State) :
    (pollExt s).2 = { s with extIn := (pollExt s).2.extIn, extCalls := (pollExt s).2.extCalls } := by
  rcases pollExt_cases s with ⟨_, _, h⟩ | ⟨_, h⟩
  · rw [h]
    rcases callExtIn_cases s with ⟨_, h⟩ | ⟨p, rest, _, h⟩ <;> rw [h]
  · rw [h]

/-- The Reverb Unit changes RAM and its cursor only (R61, R197). -/
theorem reverbProcess_state (l r : S16) (s : State) :
    (reverbProcess l r s).1
      = { s with ram := (reverbProcess l r s).1.ram, rcur := (reverbProcess l r s).1.rcur } := by
  unfold reverbProcess
  split <;> rfl

/-- The reverb stage changes RAM, the cursor and ROUT only (R215). -/
theorem runReverb_state (m : MixBus) (s : State) :
    runReverb m s
      = { s with
          ram := (runReverb m s).ram, rcur := (runReverb m s).rcur,
          routL := (runReverb m s).routL, routR := (runReverb m s).routR } := by
  unfold runReverb
  split
  · simp only
    rw [reverbProcess_state]
  · rfl

/-- The voices of a STEP are the voices before, each stepped (R213). -/
theorem stepVoices_voices (cfg : Config) (ram : Memory) (blocks : Nat) (vs : List Voice)
    (m : MixBus) :
    (stepVoices cfg ram blocks vs m).1 = vs.map fun v => (voiceStep cfg ram blocks v).voice := by
  induction vs generalizing m with
  | nil => rfl
  | cons v vs ih => simp [stepVoices, ih]

/-- STEP after the oracle changes the voices, RAM, the reverb cursor, ROUT and CYCLE only (R49, R210). -/
theorem stepFrame_state (cfg : Config) (ext : Stereo) (s : State) :
    (stepFrame cfg ext s).1
      = { s with
          voices := s.voices.map fun v => (voiceStep cfg s.ram (nBlocks s) v).voice,
          ram := (stepFrame cfg ext s).1.ram, rcur := (stepFrame cfg ext s).1.rcur,
          routL := (stepFrame cfg ext s).1.routL, routR := (stepFrame cfg ext s).1.routR,
          cycle := s.cycle + 1 } := by
  unfold stepFrame
  simp only
  rw [runReverb_state, ← stepVoices_voices cfg s.ram (nBlocks s) s.voices ⟨0, 0, 0, 0⟩]

end Sys2Proof.Machine
end

