-- ==== Sys2Proof/Laws/PerInstr.lean ====
section
/-! SUPPORT. Facts stated for every operation, one lemma per constructor. Family TableRow: the command
word of an operation is selected by its own row of spec/opcode_table.json, `w & mask = match`. -/

namespace Sys2Proof.Laws.TableRow

/-- The row's opcode, `match[63:56]`. -/
def rowOpcode : Instr → BitVec 8
  | .init _ _ => 0x01
  | .destroy => 0x02
  | .step => 0x03
  | .kon _ => 0x04
  | .koff _ => 0x05
  | .setExtcb _ => 0x06
  | .wrVrate _ _ => 0x10
  | .wrVvoll _ _ => 0x11
  | .wrVvolr _ _ => 0x12
  | .wrVadsr _ _ => 0x13
  | .wrVstart _ _ => 0x14
  | .wrVflags _ _ => 0x15
  | .wrMvoll _ => 0x20
  | .wrMvolr _ => 0x21
  | .wrRvoll _ => 0x22
  | .wrRvolr _ => 0x23
  | .wrXvoll _ => 0x24
  | .wrXvolr _ => 0x25
  | .wrCtrl _ => 0x26
  | .wrRbase _ => 0x27
  | .wrRreg _ _ => 0x28
  | .ramWr _ _ => 0x30
  | .ramRd _ => 0x31
  | .rdVrate _ => 0x90
  | .rdVvoll _ => 0x91
  | .rdVvolr _ => 0x92
  | .rdVadsr _ => 0x93
  | .rdVstart _ => 0x94
  | .rdVflags _ => 0x95
  | .rdMvoll => 0xA0
  | .rdMvolr => 0xA1
  | .rdRvoll => 0xA2
  | .rdRvolr => 0xA3
  | .rdXvoll => 0xA4
  | .rdXvolr => 0xA5
  | .rdCtrl => 0xA6
  | .rdRbase => 0xA7
  | .rdRreg _ => 0xA8

/-- The row's mask on `idx`, bits [55:48]. -/
def idxMask : Instr → BitVec 8
  | .init _ _ => 0x00
  | .destroy => 0xFF
  | .step => 0xFF
  | .kon _ => 0x00
  | .koff _ => 0x00
  | .setExtcb _ => 0xFF
  | .wrVrate _ _ => 0x00
  | .wrVvoll _ _ => 0x00
  | .wrVvolr _ _ => 0x00
  | .wrVadsr _ _ => 0x00
  | .wrVstart _ _ => 0x00
  | .wrVflags _ _ => 0x00
  | .wrMvoll _ => 0xFF
  | .wrMvolr _ => 0xFF
  | .wrRvoll _ => 0xFF
  | .wrRvolr _ => 0xFF
  | .wrXvoll _ => 0xFF
  | .wrXvolr _ => 0xFF
  | .wrCtrl _ => 0xFF
  | .wrRbase _ => 0xFF
  | .wrRreg _ _ => 0xE0
  | .ramWr _ _ => 0x00
  | .ramRd _ => 0xFF
  | .rdVrate _ => 0x00
  | .rdVvoll _ => 0x00
  | .rdVvolr _ => 0x00
  | .rdVadsr _ => 0x00
  | .rdVstart _ => 0x00
  | .rdVflags _ => 0x00
  | .rdMvoll => 0xFF
  | .rdMvolr => 0xFF
  | .rdRvoll => 0xFF
  | .rdRvolr => 0xFF
  | .rdXvoll => 0xFF
  | .rdXvolr => 0xFF
  | .rdCtrl => 0xFF
  | .rdRbase => 0xFF
  | .rdRreg _ => 0xE0

/-- The row's mask on `operand`, bits [31:0]. -/
def operandMask : Instr → BitVec 32
  | .init _ _ => 0x00000000
  | .destroy => 0xFFFFFFFF
  | .step => 0xFFFFFFFF
  | .kon _ => 0xFFFFFFFF
  | .koff _ => 0xFFFFFFFF
  | .setExtcb _ => 0xFFFFFFFE
  | .wrVrate _ _ => 0xFFFF0000
  | .wrVvoll _ _ => 0xFFFF0000
  | .wrVvolr _ _ => 0xFFFF0000
  | .wrVadsr _ _ => 0x00000000
  | .wrVstart _ _ => 0x00000000
  | .wrVflags _ _ => 0xFFFFFFFC
  | .wrMvoll _ => 0xFFFF0000
  | .wrMvolr _ => 0xFFFF0000
  | .wrRvoll _ => 0xFFFF0000
  | .wrRvolr _ => 0xFFFF0000
  | .wrXvoll _ => 0xFFFF0000
  | .wrXvolr _ => 0xFFFF0000
  | .wrCtrl _ => 0xFFFFFFF0
  | .wrRbase _ => 0x00000000
  | .wrRreg _ _ => 0xFFFF0000
  | .ramWr _ _ => 0x00000000
  | .ramRd _ => 0x00000000
  | .rdVrate _ => 0xFFFFFFFF
  | .rdVvoll _ => 0xFFFFFFFF
  | .rdVvolr _ => 0xFFFFFFFF
  | .rdVadsr _ => 0xFFFFFFFF
  | .rdVstart _ => 0xFFFFFFFF
  | .rdVflags _ => 0xFFFFFFFF
  | .rdMvoll => 0xFFFFFFFF
  | .rdMvolr => 0xFFFFFFFF
  | .rdRvoll => 0xFFFFFFFF
  | .rdRvolr => 0xFFFFFFFF
  | .rdXvoll => 0xFFFFFFFF
  | .rdXvolr => 0xFFFFFFFF
  | .rdCtrl => 0xFFFFFFFF
  | .rdRbase => 0xFFFFFFFF
  | .rdRreg _ => 0xFFFFFFFF

/-- The row's mask: the opcode, the reserved bits and every must-be-zero bit (R93). -/
def rowMask (i : Instr) : Word := 0xFF#8 ++ idxMask i ++ 0xFFFF#16 ++ operandMask i

/-- The row's match: the opcode, and zero elsewhere. -/
def rowMatch (i : Instr) : Word := rowOpcode i ++ 0#8 ++ 0#16 ++ 0#32

/-- The operation's command word is selected by the operation's own row. -/
def Statement (i : Instr) : Prop := encode i &&& rowMask i = rowMatch i

/-- A word is selected by a row if each of its fields is. -/
theorem select_mkWord {op op' idx idxM : BitVec 8} {operand operandM : Word32}
    (ho : op = op') (hi : idx &&& idxM = 0#8) (hx : operand &&& operandM = 0#32) :
    mkWord op idx operand &&& (0xFF#8 ++ idxM ++ 0xFFFF#16 ++ operandM)
      = (op' ++ 0#8 ++ 0#16 ++ 0#32 : Word) := by
  subst ho
  have h : op &&& 0xFF#8 = op := BitVec.and_allOnes
  unfold mkWord
  rw [BitVec.and_append, BitVec.and_append, BitVec.and_append, h, hi, hx]
  rfl

/-- A narrow immediate leaves the operand's upper bits zero. -/
theorem append_mask {n m : Nat} (imm : BitVec m) :
    (0#n ++ imm) &&& (BitVec.allOnes n ++ 0#m) = 0#n ++ 0#m := by
  rw [BitVec.and_append]; simp

/-- A reverb register index leaves the upper three bits of `idx` zero. -/
theorem regIndex_mask (k : Fin 32) : idxOf k.val &&& 0xE0 = 0#8 := by
  revert k; decide

/-- An operand under an empty mask. -/
theorem free_operand {n : Nat} (x : BitVec n) : x &&& 0#n = 0#n := by simp

/-- A field that is zero under any mask. -/
theorem zero_mask {n : Nat} (x : BitVec n) : 0#n &&& x = 0#n := by simp

theorem init (nv size : Nat) : Statement (.init nv size) :=
  select_mkWord rfl (free_operand _) (free_operand _)

theorem destroy : Statement (.destroy) :=
  select_mkWord rfl (zero_mask _) (zero_mask _)

theorem step : Statement (.step) :=
  select_mkWord rfl (zero_mask _) (zero_mask _)

theorem kon (i : Nat) : Statement (.kon i) :=
  select_mkWord rfl (free_operand _) (zero_mask _)

theorem koff (i : Nat) : Statement (.koff i) :=
  select_mkWord rfl (free_operand _) (zero_mask _)

theorem setExtcb (imm : BitVec 1) : Statement (.setExtcb imm) :=
  select_mkWord rfl (zero_mask _) (append_mask (n := 31) _)

theorem wrVrate (i : Nat) (imm : U16) : Statement (.wrVrate i imm) :=
  select_mkWord rfl (free_operand _) (append_mask (n := 16) _)

theorem wrVvoll (i : Nat) (imm : S16) : Statement (.wrVvoll i imm) :=
  select_mkWord rfl (free_operand _) (append_mask (n := 16) _)

theorem wrVvolr (i : Nat) (imm : S16) : Statement (.wrVvolr i imm) :=
  select_mkWord rfl (free_operand _) (append_mask (n := 16) _)

theorem wrVadsr (i : Nat) (imm : Word32) : Statement (.wrVadsr i imm) :=
  select_mkWord rfl (free_operand _) (free_operand _)

theorem wrVstart (i : Nat) (imm : Word32) : Statement (.wrVstart i imm) :=
  select_mkWord rfl (free_operand _) (free_operand _)

theorem wrVflags (i : Nat) (imm : BitVec 2) : Statement (.wrVflags i imm) :=
  select_mkWord rfl (free_operand _) (append_mask (n := 30) _)

theorem wrMvoll (imm : S16) : Statement (.wrMvoll imm) :=
  select_mkWord rfl (zero_mask _) (append_mask (n := 16) _)

theorem wrMvolr (imm : S16) : Statement (.wrMvolr imm) :=
  select_mkWord rfl (zero_mask _) (append_mask (n := 16) _)

theorem wrRvoll (imm : S16) : Statement (.wrRvoll imm) :=
  select_mkWord rfl (zero_mask _) (append_mask (n := 16) _)

theorem wrRvolr (imm : S16) : Statement (.wrRvolr imm) :=
  select_mkWord rfl (zero_mask _) (append_mask (n := 16) _)

theorem wrXvoll (imm : S16) : Statement (.wrXvoll imm) :=
  select_mkWord rfl (zero_mask _) (append_mask (n := 16) _)

theorem wrXvolr (imm : S16) : Statement (.wrXvolr imm) :=
  select_mkWord rfl (zero_mask _) (append_mask (n := 16) _)

theorem wrCtrl (imm : BitVec 4) : Statement (.wrCtrl imm) :=
  select_mkWord rfl (zero_mask _) (append_mask (n := 28) _)

theorem wrRbase (imm : Word32) : Statement (.wrRbase imm) :=
  select_mkWord rfl (zero_mask _) (free_operand _)

theorem wrRreg (k : Fin 32) (imm : U16) : Statement (.wrRreg k imm) :=
  select_mkWord rfl (regIndex_mask _) (append_mask (n := 16) _)

theorem ramWr (b : Byte) (addr : Nat) : Statement (.ramWr b addr) :=
  select_mkWord rfl (free_operand _) (free_operand _)

theorem ramRd (addr : Nat) : Statement (.ramRd addr) :=
  select_mkWord rfl (zero_mask _) (free_operand _)

theorem rdVrate (i : Nat) : Statement (.rdVrate i) :=
  select_mkWord rfl (free_operand _) (zero_mask _)

theorem rdVvoll (i : Nat) : Statement (.rdVvoll i) :=
  select_mkWord rfl (free_operand _) (zero_mask _)

theorem rdVvolr (i : Nat) : Statement (.rdVvolr i) :=
  select_mkWord rfl (free_operand _) (zero_mask _)

theorem rdVadsr (i : Nat) : Statement (.rdVadsr i) :=
  select_mkWord rfl (free_operand _) (zero_mask _)

theorem rdVstart (i : Nat) : Statement (.rdVstart i) :=
  select_mkWord rfl (free_operand _) (zero_mask _)

theorem rdVflags (i : Nat) : Statement (.rdVflags i) :=
  select_mkWord rfl (free_operand _) (zero_mask _)

theorem rdMvoll : Statement (.rdMvoll) :=
  select_mkWord rfl (zero_mask _) (zero_mask _)

theorem rdMvolr : Statement (.rdMvolr) :=
  select_mkWord rfl (zero_mask _) (zero_mask _)

theorem rdRvoll : Statement (.rdRvoll) :=
  select_mkWord rfl (zero_mask _) (zero_mask _)

theorem rdRvolr : Statement (.rdRvolr) :=
  select_mkWord rfl (zero_mask _) (zero_mask _)

theorem rdXvoll : Statement (.rdXvoll) :=
  select_mkWord rfl (zero_mask _) (zero_mask _)

theorem rdXvolr : Statement (.rdXvolr) :=
  select_mkWord rfl (zero_mask _) (zero_mask _)

theorem rdCtrl : Statement (.rdCtrl) :=
  select_mkWord rfl (zero_mask _) (zero_mask _)

theorem rdRbase : Statement (.rdRbase) :=
  select_mkWord rfl (zero_mask _) (zero_mask _)

theorem rdRreg (k : Fin 32) : Statement (.rdRreg k) :=
  select_mkWord rfl (regIndex_mask _) (zero_mask _)

end Sys2Proof.Laws.TableRow
end

