-- ==== Sys2Proof/Laws/Voice.lean ====
section
/-! SUPPORT. What each operation of a voice leaves alone: the host-written registers always, and the
fields of the playback position or of the envelope where the operation is about the other. -/

namespace Sys2Proof.Machine

/-- An envelope tick writes the level, the phase and the wait only. -/
theorem envTick_frame (v : Voice) :
    envTick v = { v with
      level := (envTick v).level, phase := (envTick v).phase, envWait := (envTick v).envWait } := by
  unfold envTick
  split
  · rfl
  · split
    · rfl
    · unfold envChange
      dsimp only
      split <;> [rfl; split <;> [rfl; split <;> rfl]]

/-- The flags of a block move the loop point and the next block, and may stop the voice. -/
theorem applyFlags_frame (a : Nat) (flags : Byte) (v : Voice) :
    applyFlags a flags v = { v with
      loop := (applyFlags a flags v).loop, next := (applyFlags a flags v).next,
      level := (applyFlags a flags v).level, phase := (applyFlags a flags v).phase,
      envWait := (applyFlags a flags v).envWait } := by
  unfold applyFlags
  cases loopStart flags <;> cases loopEnd flags <;> cases loopRepeat flags <;> rfl

/-- After the flags of a block the voice is as before in phase, level and wait, or it is stopped. -/
theorem applyFlags_envelope (a : Nat) (flags : Byte) (v : Voice) :
    ((applyFlags a flags v).phase = v.phase ∧ (applyFlags a flags v).level = v.level ∧
        (applyFlags a flags v).envWait = v.envWait) ∨
      ((applyFlags a flags v).phase = .off ∧ (applyFlags a flags v).level = 0 ∧
        (applyFlags a flags v).envWait = 0) := by
  unfold applyFlags
  cases loopStart flags <;> cases loopEnd flags <;> cases loopRepeat flags <;> simp [stopVoice]

/-- The fields a host operation writes, which the voice step only reads. -/
theorem fetchBlock_registers (cfg : Config) (ram : Memory) (blocks : Nat) (v : Voice) :
    let w := fetchBlock cfg ram blocks v
    w.rate = v.rate ∧ w.volL = v.volL ∧ w.volR = v.volR ∧ w.adsr = v.adsr ∧ w.start = v.start ∧
      w.disabled = v.disabled ∧ w.rsend = v.rsend := by
  unfold fetchBlock
  dsimp only
  rw [applyFlags_frame]
  exact ⟨rfl, rfl, rfl, rfl, rfl, rfl, rfl⟩

theorem fetchBlock_envelope (cfg : Config) (ram : Memory) (blocks : Nat) (v : Voice) :
    let w := fetchBlock cfg ram blocks v
    (w.phase = v.phase ∧ w.level = v.level ∧ w.envWait = v.envWait) ∨
      (w.phase = .off ∧ w.level = 0 ∧ w.envWait = 0) :=
  applyFlags_envelope _ _ _

theorem fetchBlock_position (cfg : Config) (ram : Memory) (blocks : Nat) (v : Voice) :
    (fetchBlock cfg ram blocks v).sidx = 0 ∧ (fetchBlock cfg ram blocks v).frac = v.frac := by
  unfold fetchBlock
  dsimp only
  rw [applyFlags_frame]
  exact ⟨rfl, rfl⟩

theorem crossBoundary_registers (cfg : Config) (ram : Memory) (blocks : Nat) (v : Voice) :
    let w := crossBoundary cfg ram blocks v
    w.rate = v.rate ∧ w.volL = v.volL ∧ w.volR = v.volR ∧ w.adsr = v.adsr ∧ w.start = v.start ∧
      w.disabled = v.disabled ∧ w.rsend = v.rsend := by
  unfold crossBoundary
  dsimp only
  by_cases hs : v.sidx = 28
  · rw [if_pos hs]
    split <;> exact fetchBlock_registers cfg ram blocks v
  · rw [if_neg hs]
    split <;> exact ⟨rfl, rfl, rfl, rfl, rfl, rfl, rfl⟩

theorem crossBoundary_envelope (cfg : Config) (ram : Memory) (blocks : Nat) (v : Voice) :
    let w := crossBoundary cfg ram blocks v
    (w.phase = v.phase ∧ w.level = v.level ∧ w.envWait = v.envWait) ∨
      (w.phase = .off ∧ w.level = 0 ∧ w.envWait = 0) := by
  unfold crossBoundary
  dsimp only
  by_cases hs : v.sidx = 28
  · rw [if_pos hs]
    split <;> exact fetchBlock_envelope cfg ram blocks v
  · rw [if_neg hs]
    split <;> exact .inl ⟨rfl, rfl, rfl⟩

/-- No walk over sample boundaries changes a host-written register. -/
theorem crossBoundaries_registers (cfg : Config) (ram : Memory) (blocks n : Nat) (v : Voice) :
    let w := crossBoundaries cfg ram blocks n v
    w.rate = v.rate ∧ w.volL = v.volL ∧ w.volR = v.volR ∧ w.adsr = v.adsr ∧ w.start = v.start ∧
      w.disabled = v.disabled ∧ w.rsend = v.rsend := by
  induction n generalizing v with
  | zero => exact ⟨rfl, rfl, rfl, rfl, rfl, rfl, rfl⟩
  | succ n ih =>
    unfold crossBoundaries
    dsimp only
    split
    · exact ⟨rfl, rfl, rfl, rfl, rfl, rfl, rfl⟩
    · have h := ih (crossBoundary cfg ram blocks v)
      have h' := crossBoundary_registers cfg ram blocks v
      simp only at h h'
      simp only [h, h', and_self]

/-- A walk over sample boundaries leaves phase, level and wait alone, or stops the voice. -/
theorem crossBoundaries_envelope (cfg : Config) (ram : Memory) (blocks n : Nat) (v : Voice) :
    let w := crossBoundaries cfg ram blocks n v
    (w.phase = v.phase ∧ w.level = v.level ∧ w.envWait = v.envWait) ∨
      (w.phase = .off ∧ w.level = 0 ∧ w.envWait = 0) := by
  induction n generalizing v with
  | zero => exact .inl ⟨rfl, rfl, rfl⟩
  | succ n ih =>
    unfold crossBoundaries
    dsimp only
    split
    · exact .inl ⟨rfl, rfl, rfl⟩
    · rcases ih (crossBoundary cfg ram blocks v) with ⟨hp, hl, hw⟩ | h
      · rcases crossBoundary_envelope cfg ram blocks v with ⟨hp', hl', hw'⟩ | ⟨hp', hl', hw'⟩
        · exact .inl ⟨hp.trans hp', hl.trans hl', hw.trans hw'⟩
        · exact .inr ⟨hp.trans hp', hl.trans hl', hw.trans hw'⟩
      · exact .inr h

/-- The voice after a step, without the sample: unchanged, or walked, or walked and ticked. -/
theorem voiceStep_voice_cases (cfg : Config) (ram : Memory) (blocks : Nat) (v : Voice) :
    let w := crossBoundaries cfg ram blocks (advancePhase v).2 (advancePhase v).1
    ((v.disabled = true ∨ v.phase = .off) ∧ voiceStep cfg ram blocks v = ⟨v, 0, 0⟩) ∨
    (v.disabled = false ∧ v.phase ≠ .off ∧ w.phase = .off ∧
      voiceStep cfg ram blocks v = ⟨w, 0, 0⟩) ∨
    (v.disabled = false ∧ v.phase ≠ .off ∧ w.phase ≠ .off ∧
      voiceStep cfg ram blocks v = voiceOutput (interpolate cfg w) (envTick w)) := by
  unfold voiceStep
  dsimp only
  cases hd : v.disabled
  · by_cases hp : v.phase = .off
    · exact .inl ⟨.inr hp, by simp [hp]⟩
    · by_cases hw :
        (crossBoundaries cfg ram blocks (advancePhase v).2 (advancePhase v).1).phase = .off
      · exact .inr (.inl ⟨rfl, hp, hw, by simp [hp, hw]⟩)
      · exact .inr (.inr ⟨rfl, hp, hw, by simp [hp, hw]⟩)
  · exact .inl ⟨.inl rfl, rfl⟩

/-- A step of a voice changes no host-written register. -/
theorem voiceStep_registers (cfg : Config) (ram : Memory) (blocks : Nat) (v : Voice) :
    let w := (voiceStep cfg ram blocks v).voice
    w.rate = v.rate ∧ w.volL = v.volL ∧ w.volR = v.volR ∧ w.adsr = v.adsr ∧ w.start = v.start ∧
      w.disabled = v.disabled ∧ w.rsend = v.rsend := by
  have h := crossBoundaries_registers cfg ram blocks (advancePhase v).2 (advancePhase v).1
  rcases voiceStep_voice_cases cfg ram blocks v with ⟨_, e⟩ | ⟨_, _, _, e⟩ | ⟨_, _, _, e⟩ <;> rw [e]
  · exact ⟨rfl, rfl, rfl, rfl, rfl, rfl, rfl⟩
  · exact h
  · dsimp only [voiceOutput]
    rw [envTick_frame]
    exact h

end Sys2Proof.Machine
end

