-- ==== Sys2Proof/Machine/Reader.lean ====
section
/-! DEFINITION. Reading the textual form of programs (spec file 30, rules R110 to R117): one command a
line, its mnemonic and then its fields, comma-separated, in decimal or `0x` hexadecimal, a volume possibly
signed; `;` starts a comment. A line of a pseudo-operation stands for the operations it expands to. -/

namespace Sys2Proof.Machine

/-- A text as its characters. -/
abbrev Text := List Char

/-- White space inside a line. -/
def isBlank (c : Char) : Bool := c == ' ' || c == '\t' || c == '\r'

/-- A text without the white space around it. -/
def trim (t : Text) : Text := ((t.dropWhile isBlank).reverse.dropWhile isBlank).reverse

/-- The parts of a text between separators; there is always at least one. -/
def splitAtChar (sep : Char) : Text → List Text
  | [] => [[]]
  | c :: t =>
    if c == sep then [] :: splitAtChar sep t
    else
      match splitAtChar sep t with
      | [] => [[c]]
      | part :: parts => (c :: part) :: parts

/-- A digit of base 10 or 16. -/
def digitValue (base : Nat) (c : Char) : Option Nat :=
  let n := c.toNat
  let d :=
    if 48 ≤ n ∧ n ≤ 57 then some (n - 48)
    else if 97 ≤ n ∧ n ≤ 102 then some (n - 87)
    else if 65 ≤ n ∧ n ≤ 70 then some (n - 55)
    else none
  d.filter (· < base)

/-- Digits, most significant first, after a value already read. -/
def readDigits (base : Nat) : Text → Nat → Option Nat
  | [], n => some n
  | c :: t, n => (digitValue base c).bind fun d => readDigits base t (n * base + d)

/-- A number: decimal, or hexadecimal after `0x` (R110). -/
def readNat : Text → Option Nat
  | [] => none
  | '0' :: 'x' :: c :: t => readDigits 16 (c :: t) 0
  | t => readDigits 10 t 0

/-- A number that may have a minus sign (R110). -/
def readInt : Text → Option Int
  | '-' :: t => (readNat t).map fun n => -(n : Int)
  | t => (readNat t).map Int.ofNat

/-- A field below a bound. -/
def fieldBelow (bound : Nat) (x : Int) : Option Nat :=
  if 0 ≤ x ∧ x < bound then some x.toNat else none

/-- A voice index, a voice count or a data byte: 8 bits. -/
def field8 (x : Int) : Option Nat := fieldBelow 256 x

/-- A size or an address: 32 bits. -/
def field32 (x : Int) : Option Nat := fieldBelow 4294967296 x

/-- A count: any natural number (R112, R116 and R117 give none of them a bound; DESIGN CHOICE, log entry
18). -/
def fieldCount (x : Int) : Option Nat := if 0 ≤ x then some x.toNat else none

/-- An immediate of n bits, unsigned. -/
def fieldBits (n : Nat) (x : Int) : Option (BitVec n) := (fieldBelow (2 ^ n) x).map (BitVec.ofNat n)

/-- A volume: an int16, signed or as its 16 bits (R110). -/
def fieldVolume (x : Int) : Option S16 :=
  if -32768 ≤ x ∧ x < 65536 then some (BitVec.ofInt 16 x) else none

/-- A reverb register index. -/
def fieldReg (x : Int) : Option (Fin 32) :=
  if h : x.toNat < 32 then (if 0 ≤ x then some ⟨x.toNat, h⟩ else none) else none

/-- A voice operation with no immediate. -/
def readV (f : Nat → Instr) (x : Int) : Option (List Instr) := (field8 x).map fun i => [f i]

/-- A voice operation with an immediate. -/
def readVImm {k : Nat} (g : Int → Option (BitVec k)) (f : Nat → BitVec k → Instr) (x y : Int) :
    Option (List Instr) :=
  (field8 x).bind fun i => (g y).map fun v => [f i v]

/-- A global operation with an immediate. -/
def readImm {k : Nat} (g : Int → Option (BitVec k)) (f : BitVec k → Instr) (y : Int) :
    Option (List Instr) :=
  (g y).map fun v => [f v]

/-- A pseudo-operation on a pair of volumes (R111). -/
def readPair (f : S16 → S16 → List Instr) (l r : Int) : Option (List Instr) :=
  (fieldVolume l).bind fun a => (fieldVolume r).map fun b => f a b

/-- The register values of WR_REVERB (R115). -/
def readReverb (xs : List Int) : Option (List Instr) :=
  (xs.mapM (fieldBits 16)).bind fun vs =>
    if vs.length = 32 then some (pseudoWrReverb (Vector.ofFn fun k : Fin 32 => vs.getD k.val 0)) else none

/-- The operations of a mnemonic with numeric fields (R88, R110 to R117). An expansion is not checked for
addresses past 32 bits (DESIGN CHOICE, log entry 21). -/
def readFields (mnemonic : String) (xs : List Int) : Option (List Instr) :=
  match mnemonic, xs with
  | "INIT", [nv, size] => (field8 nv).bind fun n => (field32 size).map fun z => [.init n z]
  | "DESTROY", [] => some [.destroy]
  | "STEP", [] => some [.step]
  | "KON", [i] => readV .kon i
  | "KOFF", [i] => readV .koff i
  | "SET_EXTCB", [b] => readImm (fieldBits 1) .setExtcb b
  | "WR_VRATE", [i, x] => readVImm (fieldBits 16) .wrVrate i x
  | "WR_VVOLL", [i, x] => readVImm fieldVolume .wrVvoll i x
  | "WR_VVOLR", [i, x] => readVImm fieldVolume .wrVvolr i x
  | "WR_VADSR", [i, x] => readVImm (fieldBits 32) .wrVadsr i x
  | "WR_VSTART", [i, x] => readVImm (fieldBits 32) .wrVstart i x
  | "WR_VFLAGS", [i, x] => readVImm (fieldBits 2) .wrVflags i x
  | "WR_MVOLL", [x] => readImm fieldVolume .wrMvoll x
  | "WR_MVOLR", [x] => readImm fieldVolume .wrMvolr x
  | "WR_RVOLL", [x] => readImm fieldVolume .wrRvoll x
  | "WR_RVOLR", [x] => readImm fieldVolume .wrRvolr x
  | "WR_XVOLL", [x] => readImm fieldVolume .wrXvoll x
  | "WR_XVOLR", [x] => readImm fieldVolume .wrXvolr x
  | "WR_CTRL", [x] => readImm (fieldBits 4) .wrCtrl x
  | "WR_RBASE", [x] => readImm (fieldBits 32) .wrRbase x
  | "WR_RREG", [k, x] => (fieldReg k).bind fun r => (fieldBits 16 x).map fun v => [.wrRreg r v]
  | "RAM_WR", [b, a] => (fieldBits 8 b).bind fun v => (field32 a).map fun n => [.ramWr v n]
  | "RAM_RD", [a] => (field32 a).map fun n => [.ramRd n]
  | "RD_VRATE", [i] => readV .rdVrate i
  | "RD_VVOLL", [i] => readV .rdVvoll i
  | "RD_VVOLR", [i] => readV .rdVvolr i
  | "RD_VADSR", [i] => readV .rdVadsr i
  | "RD_VSTART", [i] => readV .rdVstart i
  | "RD_VFLAGS", [i] => readV .rdVflags i
  | "RD_MVOLL", [] => some [.rdMvoll]
  | "RD_MVOLR", [] => some [.rdMvolr]
  | "RD_RVOLL", [] => some [.rdRvoll]
  | "RD_RVOLR", [] => some [.rdRvolr]
  | "RD_XVOLL", [] => some [.rdXvoll]
  | "RD_XVOLR", [] => some [.rdXvolr]
  | "RD_CTRL", [] => some [.rdCtrl]
  | "RD_RBASE", [] => some [.rdRbase]
  | "RD_RREG", [k] => (fieldReg k).map fun r => [.rdRreg r]
  | "WR_VVOL", [i, l, r] => (field8 i).bind fun n => readPair (pseudoWrVvol n) l r
  | "WR_MVOL", [l, r] => readPair pseudoWrMvol l r
  | "WR_RVOL", [l, r] => readPair pseudoWrRvol l r
  | "WR_XVOL", [l, r] => readPair pseudoWrXvol l r
  | "STEPN", [n] => (fieldCount n).map pseudoStepN
  | "WR_REVERB", xs => readReverb xs
  | "SAVE_REGION", [a, n] => (field32 a).bind fun b => (fieldCount n).map fun m => pseudoSaveRegion b m
  | "CLEAR", [a, n] => (field32 a).bind fun b => (fieldCount n).map fun m => pseudoClear b m
  | _, _ => none

/-- Bytes separated by blanks, as LOAD_BYTES and LOAD_SAMPLE list them (R113, R114). -/
def readBytes (t : Text) : Option (List Byte) :=
  ((splitAtChar ' ' t).filter fun p => !p.isEmpty).mapM fun p => (readInt p).bind (fieldBits 8)

/-- Bytes in groups of sixteen. -/
def blocksOf : Nat → List Byte → List (Vector Byte 16)
  | 0, _ => []
  | n + 1, bs => Vector.ofFn (fun k : Fin 16 => bs.getD k.val 0) :: blocksOf n (bs.drop 16)

/-- LOAD_BYTES and LOAD_SAMPLE: an address, and bytes after the comma (R113, R114). -/
def readLoad (sample : Bool) (fields : Text) : Option (List Instr) :=
  match splitAtChar ',' fields with
  | [a, bytes] =>
    ((readInt (trim a)).bind field32).bind fun n => (readBytes (trim bytes)).bind fun bs =>
      if sample then
        if bs.length % 16 = 0 then some (pseudoLoadSample n (blocksOf (bs.length / 16) bs)) else none
      else some (pseudoLoadBytes n bs)
  | _ => none

/-- The operations a line stands for: none where it is blank or a comment (R110). -/
def readLine (line : Text) : Option (List Instr) :=
  let code := trim (line.takeWhile (· != ';'))
  let mnemonic := code.takeWhile fun c => !isBlank c
  let fields := trim (code.dropWhile fun c => !isBlank c)
  if mnemonic.isEmpty then some []
  else if mnemonic = "LOAD_BYTES".toList then readLoad false fields
  else if mnemonic = "LOAD_SAMPLE".toList then readLoad true fields
  else
    let numbers :=
      if fields.isEmpty then some [] else (splitAtChar ',' fields).mapM fun f => readInt (trim f)
    numbers.bind (readFields (String.ofList mnemonic))

/-- The program a text stands for, or none where a line is no command (R110). -/
def readProgram (text : String) : Option (List Instr) :=
  ((splitAtChar '\n' text.toList).mapM readLine).map List.flatten

end Sys2Proof.Machine
end

