-- ==== Sys2Proof/Tests/Slice0.lean ====
section
/-! SUPPORT. Tests. Expected values are the spec's: the words of spec file 95, sections 2.1 and 2.7, its
vectors A, E, V, M and F, and hand calculation from the rule named. The last section shows, for each statement
of Certificates/Slice0/Obligations.lean that has hypotheses, concrete values that meet them. -/

namespace Sys2Proof.Machine.Tests

set_option Elab.async false

/-! ## Well-formed operations: one ill-formed term for each check (R86) -/

theorem test_illFormed_init_count : ¬ (Instr.init 256 16).WellFormed := by decide
theorem test_illFormed_init_size : ¬ (Instr.init 0 0x100000000).WellFormed := by decide
theorem test_illFormed_kon : ¬ (Instr.kon 256).WellFormed := by decide
theorem test_illFormed_koff : ¬ (Instr.koff 256).WellFormed := by decide
theorem test_illFormed_wrVrate : ¬ (Instr.wrVrate 256 0).WellFormed := by decide
theorem test_illFormed_wrVvoll : ¬ (Instr.wrVvoll 256 0).WellFormed := by decide
theorem test_illFormed_wrVvolr : ¬ (Instr.wrVvolr 256 0).WellFormed := by decide
theorem test_illFormed_wrVadsr : ¬ (Instr.wrVadsr 256 0).WellFormed := by decide
theorem test_illFormed_wrVstart : ¬ (Instr.wrVstart 256 0).WellFormed := by decide
theorem test_illFormed_wrVflags : ¬ (Instr.wrVflags 256 0).WellFormed := by decide
theorem test_illFormed_ramWr : ¬ (Instr.ramWr 0 0x100000000).WellFormed := by decide
theorem test_illFormed_ramRd : ¬ (Instr.ramRd 0x100000000).WellFormed := by decide
theorem test_illFormed_rdVrate : ¬ (Instr.rdVrate 256).WellFormed := by decide
theorem test_illFormed_rdVvoll : ¬ (Instr.rdVvoll 256).WellFormed := by decide
theorem test_illFormed_rdVvolr : ¬ (Instr.rdVvolr 256).WellFormed := by decide
theorem test_illFormed_rdVadsr : ¬ (Instr.rdVadsr 256).WellFormed := by decide
theorem test_illFormed_rdVstart : ¬ (Instr.rdVstart 256).WellFormed := by decide
theorem test_illFormed_rdVflags : ¬ (Instr.rdVflags 256).WellFormed := by decide

/-! ## Decoding: a word of each row of the opcode table (spec file 95, 2.1 and 2.7) -/

theorem test_decode_init : decode 0x0118000000080000 = .ok (.init 24 0x80000) := by rfl
theorem test_decode_destroy : decode 0x0200000000000000 = .ok (.destroy) := by rfl
theorem test_decode_step : decode 0x0300000000000000 = .ok (.step) := by rfl
theorem test_decode_kon : decode 0x0417000000000000 = .ok (.kon 23) := by rfl
theorem test_decode_koff : decode 0x0502000000000000 = .ok (.koff 2) := by rfl
theorem test_decode_setExtcb : decode 0x0600000000000001 = .ok (.setExtcb 1) := by rfl
theorem test_decode_wrVrate : decode 0x100500000000FFFF = .ok (.wrVrate 5 0xFFFF) := by rfl
theorem test_decode_wrVvoll : decode 0x1100000000008000 = .ok (.wrVvoll 0 0x8000) := by rfl
theorem test_decode_wrVvolr : decode 0x120000000000FFFF = .ok (.wrVvolr 0 0xFFFF) := by rfl
theorem test_decode_wrVadsr : decode 0x13010000FFFFFFFF = .ok (.wrVadsr 1 0xFFFFFFFF) := by rfl
theorem test_decode_wrVstart : decode 0x14000000FFFFFFFF = .ok (.wrVstart 0 0xFFFFFFFF) := by rfl
theorem test_decode_wrVflags : decode 0x1503000000000003 = .ok (.wrVflags 3 3) := by rfl
theorem test_decode_wrMvoll : decode 0x2000000000008000 = .ok (.wrMvoll 0x8000) := by rfl
theorem test_decode_wrMvolr : decode 0x2100000000001234 = .ok (.wrMvolr 0x1234) := by rfl
theorem test_decode_wrRvoll : decode 0x2200000000007FFF = .ok (.wrRvoll 0x7FFF) := by rfl
theorem test_decode_wrRvolr : decode 0x230000000000FFFE = .ok (.wrRvolr 0xFFFE) := by rfl
theorem test_decode_wrXvoll : decode 0x2400000000000001 = .ok (.wrXvoll 1) := by rfl
theorem test_decode_wrXvolr : decode 0x2500000000008001 = .ok (.wrXvolr 0x8001) := by rfl
theorem test_decode_wrCtrl : decode 0x260000000000000F = .ok (.wrCtrl 0xF) := by rfl
theorem test_decode_wrRbase : decode 0x27000000FFFFFFFF = .ok (.wrRbase 0xFFFFFFFF) := by rfl
theorem test_decode_wrRreg : decode 0x281F00000000FFFF = .ok (.wrRreg 31 0xFFFF) := by rfl
theorem test_decode_ramWr : decode 0x30FF0000FFFFFFFF = .ok (.ramWr 0xFF 0xFFFFFFFF) := by rfl
theorem test_decode_ramRd : decode 0x310000000000003F = .ok (.ramRd 0x3F) := by rfl
theorem test_decode_rdVrate : decode 0x9001000000000000 = .ok (.rdVrate 1) := by rfl
theorem test_decode_rdVvoll : decode 0x9100000000000000 = .ok (.rdVvoll 0) := by rfl
theorem test_decode_rdVvolr : decode 0x9200000000000000 = .ok (.rdVvolr 0) := by rfl
theorem test_decode_rdVadsr : decode 0x9301000000000000 = .ok (.rdVadsr 1) := by rfl
theorem test_decode_rdVstart : decode 0x9400000000000000 = .ok (.rdVstart 0) := by rfl
theorem test_decode_rdVflags : decode 0x9501000000000000 = .ok (.rdVflags 1) := by rfl
theorem test_decode_rdMvoll : decode 0xA000000000000000 = .ok (.rdMvoll) := by rfl
theorem test_decode_rdMvolr : decode 0xA100000000000000 = .ok (.rdMvolr) := by rfl
theorem test_decode_rdRvoll : decode 0xA200000000000000 = .ok (.rdRvoll) := by rfl
theorem test_decode_rdRvolr : decode 0xA300000000000000 = .ok (.rdRvolr) := by rfl
theorem test_decode_rdXvoll : decode 0xA400000000000000 = .ok (.rdXvoll) := by rfl
theorem test_decode_rdXvolr : decode 0xA500000000000000 = .ok (.rdXvolr) := by rfl
theorem test_decode_rdCtrl : decode 0xA600000000000000 = .ok (.rdCtrl) := by rfl
theorem test_decode_rdRbase : decode 0xA700000000000000 = .ok (.rdRbase) := by rfl
theorem test_decode_rdRreg : decode 0xA81F000000000000 = .ok (.rdRreg 31) := by rfl

/-- The same words, written by the encoder. -/
theorem test_encode :
    [encode (.init 24 0x80000),
      encode (.destroy),
      encode (.step),
      encode (.kon 23),
      encode (.koff 2),
      encode (.setExtcb 1),
      encode (.wrVrate 5 0xFFFF),
      encode (.wrVvoll 0 0x8000),
      encode (.wrVvolr 0 0xFFFF),
      encode (.wrVadsr 1 0xFFFFFFFF)]
      ++ [encode (.wrVstart 0 0xFFFFFFFF),
      encode (.wrVflags 3 3),
      encode (.wrMvoll 0x8000),
      encode (.wrMvolr 0x1234),
      encode (.wrRvoll 0x7FFF),
      encode (.wrRvolr 0xFFFE),
      encode (.wrXvoll 1),
      encode (.wrXvolr 0x8001),
      encode (.wrCtrl 0xF),
      encode (.wrRbase 0xFFFFFFFF)]
      ++ [encode (.wrRreg 31 0xFFFF),
      encode (.ramWr 0xFF 0xFFFFFFFF),
      encode (.ramRd 0x3F),
      encode (.rdVrate 1),
      encode (.rdVvoll 0),
      encode (.rdVvolr 0),
      encode (.rdVadsr 1),
      encode (.rdVstart 0),
      encode (.rdVflags 1),
      encode (.rdMvoll)]
      ++ [encode (.rdMvolr),
      encode (.rdRvoll),
      encode (.rdRvolr),
      encode (.rdXvoll),
      encode (.rdXvolr),
      encode (.rdCtrl),
      encode (.rdRbase),
      encode (.rdRreg 31)]
    = [0x0118000000080000,
      0x0200000000000000,
      0x0300000000000000,
      0x0417000000000000,
      0x0502000000000000,
      0x0600000000000001,
      0x100500000000FFFF,
      0x1100000000008000,
      0x120000000000FFFF,
      0x13010000FFFFFFFF]
      ++ [0x14000000FFFFFFFF,
      0x1503000000000003,
      0x2000000000008000,
      0x2100000000001234,
      0x2200000000007FFF,
      0x230000000000FFFE,
      0x2400000000000001,
      0x2500000000008001,
      0x260000000000000F,
      0x27000000FFFFFFFF]
      ++ [0x281F00000000FFFF,
      0x30FF0000FFFFFFFF,
      0x310000000000003F,
      0x9001000000000000,
      0x9100000000000000,
      0x9200000000000000,
      0x9301000000000000,
      0x9400000000000000,
      0x9501000000000000,
      0xA000000000000000]
      ++ [0xA100000000000000,
      0xA200000000000000,
      0xA300000000000000,
      0xA400000000000000,
      0xA500000000000000,
      0xA600000000000000,
      0xA700000000000000,
      0xA81F000000000000] := by decide

/-! Illegal words (spec file 95, 2.1): every reserved gap, `rsv`, and the zero bits of each format. -/

theorem test_illegal_reservedOpcode :
    ∀ w ∈ ([0x0000000000000000, 0x0700000000000000, 0x1600000000000000, 0x2900000000000000,
      0x3200000000000000, 0x8000000000000000, 0x9600000000000000, 0xA900000000000000,
      0xFF00000000000000] : List Word),
      decode w = .error .reservedOpcode := by
  simp only [List.forall_mem_cons]
  exact ⟨rfl, rfl, rfl, rfl, rfl, rfl, rfl, rfl, rfl, by simp⟩

theorem test_illegal_reservedBits :
    ∀ w ∈ ([0x0300000100000000, 0x0300800000000000] : List Word),
      decode w = .error .reservedBits := by
  simp only [List.forall_mem_cons]
  exact ⟨rfl, rfl, by simp⟩

theorem test_illegal_mustBeZero :
    ∀ w ∈ ([0x0300000000000001, 0x0280000000000000, 0x0400000000000001, 0x1100000000010000,
      0x1500000000000004, 0x2101000000000000, 0x2600000000000010, 0x0600000000000002,
      0x2701000000000000, 0x2820000000000000, 0xA880000000000000, 0xA803000000000007,
      0x3101000000000000, 0xA000000080000000] : List Word),
      decode w = .error .mustBeZero := by
  simp only [List.forall_mem_cons]
  exact ⟨rfl, rfl, rfl, rfl, rfl, rfl, rfl, rfl, rfl, rfl, rfl, rfl, rfl, rfl, by simp⟩


/-! ## The engine the tests run on -/

/-- Block A of program P2. -/
def blockA : List Byte :=
  [0x00, 0x04, 0x21, 0x43, 0x65, 0x07, 0x10, 0x32, 0x54, 0x76, 0xF0, 0xDE, 0xBC, 0x9A, 0x08, 0x00]

/-- A RAM with these bytes from address a on. -/
def ramFrom (a : Nat) : List Byte → Memory
  | [] => []
  | b :: bs => Memory.write (ramFrom (a + 1) bs) a b

/-- The voice of vectors V1 to V6, right after KON. -/
def keyedVoice : Voice :=
  keyOn { Voice.reset with rate := 0x1000, volL := 0x7FFF, volR := 0x4000, adsr := 0xFF }

/-- A live engine of 64 bytes, four blocks, with a keyed voice and an Off voice (set-up of 2.7). -/
def engine : State :=
  { State.reset with live := true, ramSize := 0x40, voices := [keyedVoice, Voice.reset] }

/-- The state a meaning answers with. -/
def stateAfter : Answer → State
  | .next t => t
  | _ => State.reset

/-- The response word to a command word. -/
def reply (s : State) (w : Word) : Option Word := (stateAfter (step { s with cmds := [w] })).resp

/-! ## Operations: registers (spec file 95, 2.7) -/

theorem test_wrVrate : (stateAfter (exec (.wrVrate 1 0xFFFF) engine)).voices.map (·.rate)
    = [0x1000, 0xFFFF] := by decide
theorem test_wrVvoll : (stateAfter (exec (.wrVvoll 0 0x8000) engine)).voices.map
    (fun v => (v.volL, v.volR)) = [(0x8000, 0x4000), (0, 0)] := by decide
theorem test_wrVvolr : (stateAfter (exec (.wrVvolr 0 0xFFFF) engine)).voices.map
    (fun v => (v.volL, v.volR)) = [(0x7FFF, 0xFFFF), (0, 0)] := by decide
theorem test_wrVadsr : (stateAfter (exec (.wrVadsr 1 0xFFFFFFFF) engine)).voices.map (·.adsr)
    = [0xFF, 0xFFFFFFFF] := by decide
/-- Nothing but START moves: the address is used at the next KON only (R25). -/
theorem test_wrVstart : (stateAfter (exec (.wrVstart 0 0xFFFFFFFF) engine)).voices.map
    (fun v => (v.start, v.next)) = [(0xFFFFFFFF, 0), (0, 0)] := by decide
theorem test_wrVflags : (stateAfter (exec (.wrVflags 1 2) engine)).voices.map
    (fun v => (v.disabled, v.rsend)) = [(false, false), (false, true)] := by decide
theorem test_wrMvoll : (stateAfter (exec (.wrMvoll 0x8000) engine)).mvolL = 0x8000 := by decide
theorem test_wrMvolr : (stateAfter (exec (.wrMvolr 0x1234) engine)).mvolR = 0x1234 := by decide
theorem test_wrRvoll : (stateAfter (exec (.wrRvoll 0x7FFF) engine)).rvolL = 0x7FFF := by decide
theorem test_wrRvolr : (stateAfter (exec (.wrRvolr 0xFFFE) engine)).rvolR = 0xFFFE := by decide
theorem test_wrXvoll : (stateAfter (exec (.wrXvoll 1) engine)).xvolL = 1 := by decide
theorem test_wrXvolr : (stateAfter (exec (.wrXvolr 0x8001) engine)).xvolR = 0x8001 := by decide
theorem test_wrCtrl :
    let t := stateAfter (exec (.wrCtrl 0xA) engine)
    (t.mute, t.reverbEn, t.extEn, t.extReverbEn) = (false, true, false, true) := by decide
theorem test_wrRbase :
    let t := stateAfter (exec (.wrRbase 0xDEADBEEF) { engine with rcur := 6 })
    (t.rbase, t.rcur) = (0xDEADBEEF, 0) := by decide
theorem test_wrRreg :
    let t := stateAfter (exec (.wrRreg 31 1) engine)
    (t.rr.get 31, t.rr.get 30) = (1, 0) := by decide
theorem test_setExtcb : (stateAfter (exec (.setExtcb 1) engine)).extCb = true := by decide

/-- The registers of both voices and the global ones, set to the values 2.7 reads back. -/
def written : State :=
  { engine with
    voices :=
      [{ Voice.reset with volL := 0x8000, volR := 0xFFFF, start := 0xFFFFFFFF },
        { Voice.reset with rate := 0xFFFF, adsr := 0xFFFFFFFF, disabled := true, rsend := true }],
    mvolL := 0x8000, mvolR := 0x1234, rvolL := 0x7FFF, rvolR := 0xFFFE, xvolL := 1,
    xvolR := 0x8001, reverbEn := true, extReverbEn := true, rbase := 0xDEADBEEF,
    rr := (Vector.replicate 32 0).set 31 1, ram := [(0x3F, 0xA5)] }

theorem test_rdVrate : reply written 0x9001000000000000 = some 0x000000000000FFFF := by decide
theorem test_rdVvoll : reply written 0x9100000000000000 = some 0x0000000000008000 := by decide
theorem test_rdVvolr : reply written 0x9200000000000000 = some 0x000000000000FFFF := by decide
theorem test_rdVadsr : reply written 0x9301000000000000 = some 0x00000000FFFFFFFF := by decide
theorem test_rdVstart : reply written 0x9400000000000000 = some 0x00000000FFFFFFFF := by decide
theorem test_rdVflags : reply written 0x9501000000000000 = some 0x0000000000000003 := by decide
theorem test_rdMvoll : reply written 0xA000000000000000 = some 0x0000000000008000 := by decide
theorem test_rdMvolr : reply written 0xA100000000000000 = some 0x0000000000001234 := by decide
theorem test_rdRvoll : reply written 0xA200000000000000 = some 0x0000000000007FFF := by decide
theorem test_rdRvolr : reply written 0xA300000000000000 = some 0x000000000000FFFE := by decide
theorem test_rdXvoll : reply written 0xA400000000000000 = some 0x0000000000000001 := by decide
theorem test_rdXvolr : reply written 0xA500000000000000 = some 0x0000000000008001 := by decide
theorem test_rdCtrl : reply written 0xA600000000000000 = some 0x000000000000000A := by decide
theorem test_rdRbase : reply written 0xA700000000000000 = some 0x00000000DEADBEEF := by decide
theorem test_rdRreg : reply written 0xA81F000000000000 = some 0x0000000000000001 := by decide

/-! ## Operations: RAM (spec file 95, 2.7 and F6) -/

theorem test_ramWr : (stateAfter (exec (.ramWr 0xA5 0x3F) engine)).ram = [(0x3F, 0xA5)] := by decide
/-- Writing what INIT left there leaves no trace. -/
theorem test_ramWr_zero : (stateAfter (exec (.ramWr 0 0x3F) written)).ram = [] := by decide
theorem test_ramRd : reply written 0x310000000000003F = some 0x00000000000000A5 := by decide
theorem test_ramRd_outside : reply written 0x3100000000000040 = some 0x0000000600000000 := by decide

/-! ## Operations: lifecycle, triggers and faults (spec file 95, F1 to F10, V7, P7) -/

theorem test_step_notLive : reply State.reset 0x0300000000000000 = some 0x0000000200000000 := by decide
theorem test_init_noSize : reply State.reset 0x0100000000000000 = some 0x0000000400000000 := by decide
theorem test_init_largest : reply State.reset 0x01180000FFFFFFF0 = some 0 := by decide
theorem test_koff_noVoice : reply engine 0x0502000000000000 = some 0x0000000500000000 := by decide
theorem test_illegal_live : reply engine 0x9301010000000000 = some 0x0000000100000000 := by decide
theorem test_priority_decode :
    reply State.reset 0x04C8000100000000 = some 0x0000000100000000 := by decide
theorem test_priority_lifecycle : reply engine 0x0119000000000007 = some 0x0000000300000000 := by decide
theorem test_destroy :
    let t := stateAfter (exec .destroy engine)
    (t.live, t.resp, t.voices) = (false, some 0, []) := by decide
theorem test_kon :
    let v := { Voice.reset with start := 0x1234, sidx := 3, level := 5, phase := .release }
    ((stateAfter (exec (.kon 0) { engine with voices := [v] })).voices.map
      fun w => (w.phase, w.level, w.cur, w.next, w.loop, w.sidx))
      = [(.attack, 0, 0x1234, 0x1234, 0x1234, 28)] := by decide
theorem test_koff : (stateAfter (exec (.koff 0) engine)).voices.map (·.phase) = [.release, .off] := by
  decide

/-! ## STEP (spec file 95, M1, M2; 42, R202) -/

/-- The set-up of M1: no voices, the external input only. -/
def mixer : State :=
  { engine with
    voices := [], extEn := true, extCb := true, extIn := [⟨0x8000, 0x7FFF⟩],
    xvolL := 0x8000, xvolR := 0x7FFF, mvolL := 0x8000, mvolR := 0x7FFF }

theorem test_step_mix : reply mixer 0x0300000000000000 = some 0x0000000080007FFD := by decide
theorem test_step_mute :
    let t := stateAfter (exec .step { mixer with mute := true })
    (t.resp, t.cycle, t.extIn, t.extCalls) = (some 0, 1, [], 1) := by decide

/-- R202: the worked example of the Reverb Unit. -/
theorem test_reverb_R202 :
    let s := { engine with
      rbase := 4, rr := (((Vector.replicate 32 0).set 30 0x4000).set 2 0x4000).set 10 1 }
    let r := reverbProcess 0x4000 0 s
    (r.1.ram, r.1.rcur, r.2) = ([(41, 0x10)], 2, ⟨0, 0⟩) := by decide +kernel

/-! ## Voice (spec file 95, V2 to V6) -/

theorem test_voice_V2 :
    let o := voiceStep defaultConfig (ramFrom 0 blockA) 16 { keyedVoice with rate := 0xFFFF }
    (o.left, o.right, o.voice.level, o.voice.sidx, o.voice.next) = (5375, 2688, 0x3800, 4, 1) := by
  decide +kernel
theorem test_voice_V4 :
    let o := voiceStep defaultConfig (ramFrom 1 [0x01]) 16 keyedVoice
    (o.left, o.voice.phase, o.voice.sidx, o.voice.next) = (0, .off, 0, 0) := by decide +kernel
theorem test_voice_V5 :
    let o := voiceStep defaultConfig (ramFrom 0xF2 (List.replicate 14 0x11)) 16
      { keyedVoice with rate := 0x4000, start := 15, next := 15 }
    (o.left, o.voice.cur, o.voice.next) = (1791, 15, 0) := by decide +kernel
/-- V6, STEP 2: half way between the silence before the sample and the first sample. -/
theorem test_voice_V6 :
    let v := { keyedVoice with rate := 0xC00, frac := 0xC00, level := 0x3800, envWait := 1 }
    let o := voiceStep defaultConfig (ramFrom 0 blockA) 16 v
    (o.left, o.right, o.voice.sidx, o.voice.frac) = (1791, 896, 1, 0x800) := by decide +kernel

/-! ## Codec (spec file 95, A1, A2, A4, A5, A9, A10) -/

/-- The samples of a block as numbers. -/
def samplesOf (bytes : Vector Byte 16) (old new : S16) : List Int :=
  (decodeBlock defaultConfig bytes old new).pcm.toList.map (·.toInt)

/-- A block of two header bytes and data, filled up with one byte. -/
def blockOf (h f : Byte) (d : List Byte) (rest : Byte) : Vector Byte 16 :=
  Vector.ofFn fun j => (h :: f :: d).getD j.val rest

theorem test_codec_A1 : samplesOf (blockOf 0x00 0x00 [0x87] 0) 0 0
    = 28672 :: -32768 :: List.replicate 26 0 := by decide +kernel
theorem test_codec_A2 : samplesOf (blockOf 0x0D 0x07 [0x87] 0) 0 0
    = 7 :: -8 :: List.replicate 26 0 := by decide +kernel
theorem test_codec_A4 : (samplesOf (blockOf 0x28 0x02 [0x07] 0) 0 0).take 8
    = [112, 201, 270, 322, 359, 383, 397, 402] := by decide +kernel
theorem test_codec_A5 : (samplesOf (blockOf 0x3C 0x01 [] 0) 1000 2000).take 6
    = [2203, 1655, 641, -441, -1226, -1498] := by decide +kernel
theorem test_codec_A9 : samplesOf (blockOf 0x2C 0x00 [] 0) 0xFFFF 0xFFFF
    = List.replicate 28 (-1) := by decide +kernel
theorem test_codec_A10 : samplesOf (blockOf 0xFC 0xFF [] 0xFF) 5 5
    = List.replicate 28 (-1) := by decide +kernel

/-! ## Other instances (R11, R155; spec file 95, A6 and A6b; hand calculation from R148 to R158) -/

/-- The instance with the fifth filter of A6b, and an interpolator that gives the newest sample. -/
def otherConfig : Config where
  filterTable := defaultFilterTable ++ [(122, -60)]
  interp := fun _ _ _ s0 _ => s0
  interp_zero := fun _ _ => rfl

theorem test_instance_A6 :
    ((decodeBlock defaultConfig (blockOf 0x4C 0 [] 0) 1000 2000).pcm[0],
      (decodeBlock otherConfig (blockOf 0x4C 0 [] 0) 1000 2000).pcm[0]) = (0, 2875) := by decide +kernel
/-- V2 with the newest sample, `PCM[3] = 16384`, in place of the interpolated one. -/
theorem test_instance_step :
    (stateAfter (stepWith otherConfig { engine with
      ram := ramFrom 0 blockA, voices := [{ keyedVoice with rate := 0x4000 }],
      mvolL := 0x7FFF, mvolR := 0x7FFF, cmds := [0x0300000000000000] })).resp
      = some 0x000000001BFE0DFF := by decide +kernel

/-! ## Envelope (spec file 95, E2, E4 to E10): one tick each -/

/-- One tick from a phase, a level and a wait. -/
def tick (adsr : Word32) (phase : Phase) (level wait : Nat) : Phase × Nat × Nat :=
  let v := envTick { Voice.reset with adsr := adsr, phase := phase, level := level, envWait := wait }
  (v.phase, v.level, v.envWait)

theorem test_env_E2_below : tick 0x88FF .attack 0x5400 1 = (.attack, 0x6200, 1) := by decide
theorem test_env_E2_above : tick 0x88FF .attack 0x6200 1 = (.attack, 0x7000, 4) := by decide
theorem test_env_E2_top : tick 0x88FF .attack 0x7E00 1 = (.decay, 0x7FFF, 0) := by decide
theorem test_env_E4_off : tick 0 .release 0x3FFF 1 = (.off, 0, 0) := by decide
theorem test_env_E5_last : tick 0x00200000 .release 1 1 = (.off, 0, 0) := by decide
theorem test_env_E6_floor : tick 0x4BC00000 .sustain 1 1 = (.sustain, 0, 1) := by decide
theorem test_env_E7 : tick 0x47 .decay 0x7BFF 1 = (.decay, 0x781F, 1) := by decide
theorem test_env_E8 : tick 0xFF00 .attack 0 0 = (.attack, 4, 1048576) := by decide
theorem test_env_E9 : tick 0xC0000000 .sustain 0x100 0 = (.sustain, 0x80, 1) := by decide
theorem test_env_E10_wait : tick 0x000C0000 .release 0xC 2 = (.release, 0xC, 1) := by decide

/-- R110: the text of an operation. -/
theorem test_asm : asm (.wrVvoll 3 0xFFFF) = "WR_VVOLL 3, -1" := by decide +kernel
/-- R110, R111, R112: a program text, with a comment, an empty line and pseudo-operations. -/
theorem test_read :
    readProgram "INIT 1, 0x80000 ; one voice\n\nWR_MVOL -0x8000, 5\nRAM_WR 0x0C, 0x11\nSTEPN 2"
      = some [.init 1 0x80000, .wrMvoll 0x8000, .wrMvolr 5, .ramWr 0x0C 0x11, .step, .step] := by
  decide +kernel
/-- R112 gives no bound on the count of STEPN. -/
theorem test_read_largeCount : fieldCount 4294967296 = some 4294967296 := by decide
theorem test_read_noField : readProgram "KON" = none ∧ readProgram "KON 256" = none := by
  decide +kernel

/-! ## Witnesses: values that meet the hypotheses of each statement, clause by clause -/

/-- For InvariantKept and EngineAccessesInRange: a live engine with a running voice. -/
theorem witness_engine_inv : engine.Inv where
  ramWf := by decide
  ramExtent := by decide
  sizeMultiple := by decide
  sizeMax := by decide
  sizeMin := by decide
  voiceCount := by decide
  voicesOk := by
    intro v hv
    simp only [engine, List.mem_cons, List.not_mem_nil, or_false] at hv
    rcases hv with rfl | rfl <;> exact ⟨by decide, by decide, by decide, by decide, by decide⟩
  cursorEven := by decide
  cursorInside := by decide
  deadEmpty := by decide

/-- A work area of 8 bytes, the smallest one, at the end of RAM, the cursor at its last sample. -/
def reverbEngine : State := { engine with rbase := 7, rcur := 6, reverbEn := true }

theorem witness_reverbEngine_inv : reverbEngine.Inv where
  ramWf := witness_engine_inv.ramWf
  ramExtent := witness_engine_inv.ramExtent
  sizeMultiple := witness_engine_inv.sizeMultiple
  sizeMax := witness_engine_inv.sizeMax
  sizeMin := witness_engine_inv.sizeMin
  voiceCount := witness_engine_inv.voiceCount
  voicesOk := witness_engine_inv.voicesOk
  cursorEven := by decide
  cursorInside := by decide
  deadEmpty := by decide

/-- For EngineAccessesInRange: RAMs that differ outside the work area, and above RAMSIZE. -/
theorem witness_EngineAccessesInRange :
    SameBytes reverbEngine.ram [(0x37, 1)] (8 * reverbEngine.rbase.toNat) reverbEngine.ramSize ∧
      SameBytes reverbEngine.ram [(0x40, 1)] 0 reverbEngine.ramSize ∧
      reverbEngine.ram ≠ [(0x37, 1)] := by
  have below (a : Nat) (h : 0x38 ≤ a) : Memory.read [(0x37, 1)] a = Memory.read [] a :=
    if_neg (by omega)
  have above (a : Nat) (h : a < 0x40) : Memory.read [(0x40, 1)] a = Memory.read [] a :=
    if_neg (by omega)
  exact ⟨fun a h _ => below a h, fun a _ h => above a h, by decide⟩

theorem witness_DecodeEncodeRoundTrip :
    (Instr.init 255 0xFFFFFFFF).WellFormed ∧ (Instr.ramWr 0xFF 0xFFFFFFFF).WellFormed ∧
      (Instr.kon 255).WellFormed ∧ (Instr.wrRreg 31 0xFFFF).WellFormed := by decide

theorem witness_EncodeDecodeRoundTrip : decode 0x30FF0000FFFFFFFF = .ok (.ramWr 0xFF 0xFFFFFFFF) := rfl

/-- A selected word, and a pending word that no row selects. -/
theorem witness_LegalWordsAreTableRows :
    (∃ r ∈ opcodeRows, r.mask &&& 0xA81F000000000000 = r.pattern) ∧
      ({ engine with cmds := [0xA820000000000000] } : State).cmds = 0xA820000000000000 :: [] ∧
      ∀ r ∈ opcodeRows, ¬ 0xA820000000000000 &&& r.mask = r.pattern := by decide

theorem witness_StepRunsDecodedInstruction :
    engine.cmds = [] ∧ ({ engine with cmds := [0x0300000000000000] } : State).cmds
      = 0x0300000000000000 :: [] ∧ decode 0x0300000000000000 = .ok .step := ⟨rfl, rfl, rfl⟩

theorem witness_EveryCommandIsAnswered :
    ({ State.reset with cmds := [0xFFFFFFFFFFFFFFFF] } : State).cmds = 0xFFFFFFFFFFFFFFFF :: [] := rfl

/-- Each of the five faults of a decoded operation, at its bound, and operations just inside it. -/
theorem witness_FaultsExactly :
    faultOf .step State.reset = some .notLive ∧
    faultOf (.init 24 16) engine = some .alreadyLive ∧
    faultOf (.init 25 16) State.reset = some .configFault ∧
    faultOf (.init 24 0) State.reset = some .configFault ∧
    faultOf (.kon 2) engine = some .voiceIndexFault ∧
    faultOf (.ramRd 0x40) engine = some .ramAddressFault ∧
    faultOf (.init 24 16) State.reset = none ∧ faultOf (.init 0 0xFFFFFFF0) State.reset = none ∧
    faultOf (.kon 1) engine = none ∧ faultOf (.ramRd 0x3F) engine = none ∧
    faultOf .step engine = none ∧ faultOf .destroy engine = none := by decide

theorem witness_InvariantKept :
    engine.Inv ∧ ({ engine with cmds := [] } : State) = engine ∧ step engine = .next engine :=
  ⟨witness_engine_inv, rfl, rfl⟩

/-- A run of two steps that leaves a live engine with a voice. -/
theorem witness_RangesAlongEveryRun :
    ∃ t, Host.Core.run Sys2Proof.core 2
        { State.reset with cmds := [0x0101000000000040, 0x0400000000000000], extIn := [⟨1, 2⟩] }
      = .next t ∧ t.live = true ∧ t.voices.length = 1 := ⟨_, rfl, rfl, rfl⟩

/-- The parameters at both ends of their ranges, and just outside. -/
theorem witness_InitResult :
    engine.live = true ∧ State.reset.live = false ∧ (24 < 25 ∨ 0 < 16) ∧
      (0xFFFFFFF0 < 0xFFFFFFF1) ∧ (17 % 16 ≠ 0) ∧
      (24 ≤ 24 ∧ 16 ≤ 0xFFFFFFF0 ∧ 0xFFFFFFF0 % 16 = 0 ∧ 0xFFFFFFF0 ≤ 0xFFFFFFF0) := by decide

theorem witness_DestroyResult :
    engine.live = true ∧ State.reset.live = false ∧ ∀ nv size, Instr.step ≠ .init nv size := by
  exact ⟨rfl, rfl, fun _ _ h => by cases h⟩

/-- Two engines that differ, before the same host. -/
theorem witness_NothingSurvivesDestroy :
    engine ≠ reverbEngine ∧ engine.live = true ∧ reverbEngine.live = true ∧
      engine.cmds = reverbEngine.cmds ∧ engine.extIn = reverbEngine.extIn ∧
      engine.extCalls = reverbEngine.extCalls ∧ 24 ≤ 24 ∧ 16 ≤ 16 ∧ 16 % 16 = 0 := by decide

/-- For KonResult, VoiceRegisterWrites and VoiceRegisterReads: the last voice of a live engine, the first
index past it, and an engine that is not live. -/
theorem witness_voice_operation :
    engine.live = true ∧ engine.voices[1]? = some Voice.reset ∧ engine.nVoices ≤ 2 ∧
      State.reset.live = false := by decide

/-- A voice that runs and one that is Off. -/
theorem witness_KoffResult :
    engine.live = true ∧ engine.voices[0]? = some keyedVoice ∧ keyedVoice.phase ≠ .off ∧
      engine.voices[1]? = some Voice.reset ∧ Voice.reset.phase = .off := by decide

/-- For VolumeWrites, ControlWrites and GlobalRegisterReads: a live engine, one that is not, and the first
index that is no reverb register. -/
theorem witness_global_operation :
    engine.live = true ∧ State.reset.live = false ∧ 32 ≤ (32#8).toNat ∧ (0 : Fin 32) ≠ 31 := by decide

theorem witness_ReadAfterWrite : engine.live = true ∧ 1 < engine.nVoices ∧ 0x3F < engine.ramSize := by
  decide

/-- The last address of RAM and the first one past it: RamWriteResult and RamReadResult. -/
theorem witness_RamAccess :
    State.reset.live = false ∧ engine.live = true ∧ 0x3F < engine.ramSize ∧ engine.ramSize ≤ 0x40 ∧
      (0x3E : Nat) ≠ 0x3F := by decide

/-- Bytes that end where RAM ends, and addresses on both sides of them. -/
theorem witness_LoadBytesStores :
    engine.live = true ∧ 0x3C + [1, 2, 3].length ≤ engine.ramSize ∧
      0x3D + ([1, 2, 3] : List Byte).length = engine.ramSize ∧
      0x3C < 0x3D ∧ 0x3D + ([1, 2, 3] : List Byte).length ≤ 0x40 := by decide

theorem witness_AccessMatrix :
    (∃ t, exec (.kon 1) engine = .next t) ∧ mayWrite (.kon 1) .ram = false := ⟨⟨_, rfl⟩, rfl⟩

/-- For EngineAccessesInRange, ReverbWriteReadByHost, ReverbSilence (its first clause too: RAM is zero),
CursorAdvance and ReflectionAndPreviousValue. The displacement is the most negative one. -/
theorem witness_reverb :
    reverbEngine.Inv ∧ reverbEngine.live = true ∧ 0 < waSize reverbEngine ∧
      (reverbEngine.rcur : Int) < waSize reverbEngine ∧
      (∀ a, Memory.read reverbEngine.ram a = 0) ∧
      (∀ k ∈ reverbVolumes, reverbEngine.rr.get k = 0) ∧ reverbEngine.rvolL = 0 ∧
      reverbEngine.rvolR = 0 ∧ IsDisplacement (8 * 0 - 8 * 0xFFFF) :=
  ⟨witness_reverbEngine_inv, rfl, by decide, by decide, fun _ => rfl, by decide, rfl, rfl,
    0, 0xFFFF, by decide⟩

theorem witness_StepResult : reverbEngine.live = true ∧ State.reset.live = false := ⟨rfl, rfl⟩

/-- A step with the reverb off, one with a work area of size zero, and an address outside the stores of
the smallest work area. -/
theorem witness_StepStoresOnlyAtReverbTargets :
    ((∃ t, exec .step engine = .next t) ∧ engine.reverbEn = false) ∧
    ((∃ t, exec .step { reverbEngine with rbase := 8 } = .next t) ∧
      waSize { reverbEngine with rbase := 8 } ≤ 0) ∧
    ((∃ t, exec .step reverbEngine = .next t) ∧ ∀ b ∈ reverbStores reverbEngine, 0x30 ≠ b ∧ 0x30 ≠ b + 1) :=
  ⟨⟨⟨_, rfl⟩, rfl⟩, ⟨⟨_, rfl⟩, by decide⟩, ⟨⟨_, rfl⟩, by decide⟩⟩

theorem witness_OracleCalls :
    (∃ t, exec .step mixer = .next t) ∧ mixer.live = true ∧ mixer.extEn = true ∧ mixer.extCb = true ∧
      (∃ t, exec .step engine = .next t) ∧ engine.extEn = false :=
  ⟨⟨_, rfl⟩, rfl, rfl, rfl, ⟨_, rfl⟩, rfl⟩

theorem witness_MuteOnlySilences : mixer.live = true := rfl

theorem witness_CycleCountsSteps :
    engine.live = true ∧ ∀ i ∈ [Instr.step, .init 1 16, .kon 7, .step], i ≠ .destroy := by decide

/-- Work areas of size zero and of negative size. -/
theorem witness_ReverbDegrades :
    waSize { reverbEngine with rbase := 8 } = 0 ∧ waSize { reverbEngine with rbase := 0xFFFFFFFF } < 0 ∧
      ({ reverbEngine with rbase := 8 } : State).live = true := by decide

theorem witness_PhaseTransitions :
    engine.live = true ∧ engine.voices[0]? = some keyedVoice ∧
      ∃ t w, exec .step engine = .next t ∧ t.voices[0]? = some w := ⟨rfl, rfl, _, _, rfl, rfl⟩

theorem witness_SilentVoiceUntouched :
    ({ keyedVoice with disabled := true } : Voice).disabled = true ∧ Voice.reset.phase = .off := ⟨rfl, rfl⟩

theorem witness_PhaseAdvance :
    ({ keyedVoice with frac := 0xFFF } : Voice).frac ≤ 0xFFF ∧ keyedVoice.rate = 0x1000 ∧
      0x4000 < ({ keyedVoice with rate := 0x4001 } : Voice).rate.toNat := by decide

/-- The last samples of a block, with no fetch and with one. -/
theorem witness_SampleBoundaries :
    keyedVoice.phase ≠ .off ∧ keyedVoice.sidx ≤ 28 ∧ keyedVoice.sidx + 0 ≤ 28 ∧
      28 < keyedVoice.sidx + 1 ∧ keyedVoice.sidx + 28 = 56 := by decide

/-- A step that stays in its block whatever RAM holds, and two RAMs that agree on block 0 only. -/
theorem witness_StepReadsNextBlockOnly :
    keyedVoice.frac ≤ 0xFFF ∧
      (let v := { keyedVoice with sidx := 27 };
        v.sidx + (v.frac + min v.rate.toNat 0x4000) / 4096 ≤ 28) ∧
      (∀ j, j < 16 → Memory.read [] (16 * (keyedVoice.next % 4) + j)
        = Memory.read [(16, 1)] (16 * (keyedVoice.next % 4) + j)) := by decide

theorem witness_RateZero :
    let v := { keyedVoice with rate := 0 }
    v.disabled = false ∧ v.phase ≠ .off ∧ v.frac ≤ 0xFFF ∧ v.rate = 0 ∧ 1 ≤ v.sidx ∧ v.sidx ≤ 28 ∧
      (∀ j : Fin 4, v.hist.get j = 0) ∧ (∀ j : Fin 28, v.pcm.get j = 0) := by decide

theorem witness_Interpolation :
    1 ≤ ({ keyedVoice with sidx := 1 } : Voice).sidx ∧ keyedVoice.sidx ≤ 28 ∧ 0 ≤ 0xFFF := by decide

/-- A voice that goes on, and one whose fetch meets a loop end without repeat. -/
theorem witness_VoiceOutput :
    keyedVoice.Ok ∧ keyedVoice.disabled = false ∧ keyedVoice.phase ≠ .off ∧
      (crossBoundaries defaultConfig [] 4 1 keyedVoice).phase ≠ .off ∧
      (crossBoundaries defaultConfig [(1, 1)] 4 1 keyedVoice).phase = .off :=
  ⟨⟨by decide, by decide, by decide, by decide, by decide⟩, by decide +kernel⟩

/-- A voice of each running phase, at the top level and at wait 1: AttackTick, DecayTick, SustainTick and
ReleaseTick. -/
theorem witness_ticks :
    ∀ p ∈ [Phase.attack, .decay, .sustain, .release],
      ∃ v : Voice, v.phase = p ∧ v.envWait = 1 ∧ v.level = 0x7FFF :=
  fun p _ => ⟨{ Voice.reset with phase := p, envWait := 1, level := 0x7FFF }, rfl, rfl, rfl⟩

theorem witness_EnvelopeWait :
    let v := { keyedVoice with envWait := 4 * 2 ^ 20 }
    v.phase ≠ .off ∧ 4 * 2 ^ 20 - 1 < v.envWait := by decide

theorem witness_FastestEnvelope : Voice.reset.adsr = 0 := rfl

/-- A release from the top level, and one from level 0, for which one STEP is asked. -/
theorem witness_BoundedRelease :
    engine.live = true ∧ engine.voices[0]? = some keyedVoice ∧ keyedVoice.level = 0 ∧
      keyedVoice.disabled = false ∧ max 1 (releaseBound keyedVoice.adsr 0) ≤ 1 ∧
      max 1 (releaseBound 0x3F0000 0x7FFF) ≤ 0x7FFF * 2 ^ 20 := by decide

/-- The terminator in the last two blocks of 64 bytes, and a voice that comes to it. -/
theorem witness_TerminatorLoops :
    let ram := ramFrom 0x20 (terminator0 ++ terminator1);
    2 + 1 < 4 ∧
      (∀ j (h : j < 16), Memory.read ram (16 * 2 + j) = terminator0[j]'(by simpa [terminator0])) ∧
      (∀ j (h : j < 16), Memory.read ram (16 * (2 + 1) + j) = terminator1[j]'(by simpa [terminator1])) ∧
      ({ keyedVoice with next := 2 } : Voice).next = 2 := by decide +kernel

/-- Two engines that differ in what the rule lets differ. -/
theorem witness_SaveStateRoundTrip :
    let s := { engine with voices := [Voice.reset, Voice.reset] }
    let t := { s with
      voices := [{ Voice.reset with cur := 3, sidx := 9, envWait := 7, pcm := Vector.replicate 28 5 },
        Voice.reset],
      cycle := 100, routL := 1 }
    SamePersisted s t ∧ s ≠ t := by
  refine ⟨?_, by decide⟩
  exact
    { liveL := rfl, liveR := rfl, ramSize := rfl, ram := rfl,
      voices :=
        .cons ⟨⟨rfl, rfl, rfl, rfl, rfl, rfl, rfl⟩, rfl, rfl⟩
          (.cons ⟨⟨rfl, rfl, rfl, rfl, rfl, rfl, rfl⟩, rfl, rfl⟩ .nil),
      mvol := ⟨rfl, rfl⟩, rvol := ⟨rfl, rfl⟩, xvol := ⟨rfl, rfl⟩, ctrl := ⟨rfl, rfl, rfl, rfl⟩,
      extCb := rfl, rbase := rfl, rr := rfl, cursors := ⟨rfl, rfl⟩, host := ⟨rfl, rfl, rfl, rfl⟩ }

end Sys2Proof.Machine.Tests
end

section
/-! PROOFS. The scope of spec file 00: one step takes one command from the queue, and the whole effect of
STEP, stage by stage in the order of R210, is `stepRule`. -/

namespace Sys2Proof.Machine

/-! One step of the machine. -/

/-- With no command pending nothing happens (log entry 3). -/
theorem stepOf_of_no_command {run : Instr → State → Answer} {s : State} (h : s.cmds = []) :
    stepOf run s = .next s := by
  simp [stepOf, fetchCommand, h]

/-- A legal word is taken from the queue and run (R13). -/
theorem stepOf_of_legal {run : Instr → State → Answer} {s : State} {w : Word} {rest : List Word}
    {i : Instr} (h : s.cmds = w :: rest) (hw : decode w = .ok i) :
    stepOf run s = run i { s with cmds := rest } := by
  simp [stepOf, fetchCommand, h, hw]

/-! The oracle (R212). -/

/-- One poll of the oracle: its answer, and what the host has lined up afterwards (R16). -/
theorem pollExt_eq (s : State) :
    pollExt s =
      (if s.extEn && s.extCb then s.extIn.headD (Config.extIn s.extCalls) else ⟨0, 0⟩,
        { s with
          extIn := if s.extEn && s.extCb then s.extIn.tail else s.extIn,
          extCalls := if s.extEn && s.extCb then s.extCalls + 1 else s.extCalls }) := by
  rcases pollExt_cases s with ⟨hen, hcb, hpoll⟩ | ⟨hoff, hpoll⟩
  · rw [hpoll]
    rcases callExtIn_cases s with ⟨hnil, hcall⟩ | ⟨p, rest, hcons, hcall⟩
    · simp [hcall, hen, hcb, hnil]
    · simp [hcall, hen, hcb, hcons]
  · simp [hpoll, hoff]

/-! The Reverb Unit: each function of the machine is the rule of its name. -/

theorem scale_eq_div (a : Int) (v : S16) : scale a v = a * v.toInt / 32768 := rfl

theorem sat16_eq_satRule (x : Int) : sat16 x = satRule x := rfl

theorem mulSat_eq_mulRule (a v : S16) : mulSat a v = mulRule a v := rfl

theorem addSat_eq_addRule (a b : S16) : addSat a b = addRule a b := rfl

theorem subSat_eq_subRule (a b : S16) : subSat a b = subRule a b := rfl

theorem revRead_eq_readRule (s : State) (m : Memory) (d : Int) :
    revRead s m d = readRule s m d := rfl

theorem revWrite_eq_writeRule (s : State) (m : Memory) (d : Int) (x : S16) :
    revWrite s m d x = writeRule s m d x := rfl

theorem reflect_eq_reflectRule (s : State) (inp : S16) (src dst : RevReg) (m : Memory) :
    reflect s inp src dst m = reflectRule s inp src dst m := by
  simp only [reflect, revRead_eq_readRule, revWrite_eq_writeRule, mulSat_eq_mulRule,
    addSat_eq_addRule, subSat_eq_subRule]
  rfl

theorem comb_eq_combRule (s : State) (m : Memory) (k1 k2 k3 k4 : RevReg) :
    comb s m k1 k2 k3 k4 = combRule s m k1 k2 k3 k4 := by
  simp only [comb, revRead_eq_readRule, mulSat_eq_mulRule, addSat_eq_addRule]
  rfl

theorem allPass_eq_apfRule (s : State) (x : S16) (dst off gain : RevReg) (m : Memory) :
    allPass s x dst off gain m = apfRule s x dst off gain m := by
  simp only [allPass, revRead_eq_readRule, revWrite_eq_writeRule, mulSat_eq_mulRule,
    addSat_eq_addRule, subSat_eq_subRule]
  rfl

/-- On a work area of zero or negative size the unit is silent and changes nothing (R183). -/
theorem reverbProcess_of_no_area (l r : S16) {s : State} (h : waSize s ≤ 0) :
    reverbProcess l r s = (s, ⟨0, 0⟩) := if_pos h

/-- On any other work area the network runs and the cursor advances (R197). -/
theorem reverbProcess_of_area (l r : S16) {s : State} (h : ¬ waSize s ≤ 0) :
    reverbProcess l r s =
      ({ s with ram := (reverbNetwork s l r).1, rcur := advanceCursor s }, (reverbNetwork s l r).2) :=
  if_neg h

/-- The Reverb Unit runs the sequence of R197. -/
theorem reverbProcess_eq_reverbRule (l r : S16) (s : State) :
    reverbProcess l r s = reverbRule l r s := by
  by_cases hwa : waSize s ≤ 0
  · rw [reverbProcess_of_no_area l r hwa]
    exact (if_pos hwa).symm
  · rw [reverbProcess_of_area l r hwa]
    simp only [reverbNetwork, reflections, reflect_eq_reflectRule, comb_eq_combRule,
      allPass_eq_apfRule, mulSat_eq_mulRule]
    exact (if_neg hwa).symm

/-- Two states agree on everything the Reverb Unit reads: RAM, the work area, its registers and its
volumes. -/
structure SameReverbInputs (s t : State) : Prop where
  ramSize : t.ramSize = s.ramSize
  ram : t.ram = s.ram
  rbase : t.rbase = s.rbase
  rcur : t.rcur = s.rcur
  rr : t.rr = s.rr
  rvolL : t.rvolL = s.rvolL
  rvolR : t.rvolR = s.rvolR

section
variable {s t : State} (h : SameReverbInputs s t)
include h

theorem waSize_congr : waSize t = waSize s := by
  rw [waSize, waSize, h.ramSize, h.rbase]

theorem revAddr_congr (d : Int) : revAddr t d = revAddr s d := by
  rw [revAddr, revAddr, waSize_congr h, waBase, waBase, h.rbase, h.rcur]

theorem revRead_congr (m : Memory) (d : Int) : revRead t m d = revRead s m d := by
  rw [revRead, revRead, revAddr_congr h]

theorem revWrite_congr (m : Memory) (d : Int) (x : S16) : revWrite t m d x = revWrite s m d x := by
  rw [revWrite, revWrite, revAddr_congr h]

theorem vol_congr (k : RevReg) : vol t k = vol s k := by rw [vol, vol, h.rr]

theorem disp_congr (k : RevReg) : disp t k = disp s k := by rw [disp, disp, h.rr]

theorem reverbNetwork_congr (l r : S16) : reverbNetwork t l r = reverbNetwork s l r := by
  simp only [reverbNetwork, reflections, reflect, comb, allPass, revRead_congr h, revWrite_congr h,
    vol_congr h, disp_congr h, h.ram, h.rvolL, h.rvolR]

/-- The Reverb Unit does the same in both states: it reads nothing else, and keeps what it does not
write. -/
theorem reverbProcess_congr (l r : S16) :
    reverbProcess l r t =
      ({ t with ram := (reverbProcess l r s).1.ram, rcur := (reverbProcess l r s).1.rcur },
        (reverbProcess l r s).2) := by
  by_cases hwa : waSize s ≤ 0
  · rw [reverbProcess_of_no_area l r hwa, reverbProcess_of_no_area l r (waSize_congr h ▸ hwa),
      ← h.ram, ← h.rcur]
  · rw [reverbProcess_of_area l r hwa, reverbProcess_of_area l r (waSize_congr h ▸ hwa),
      reverbNetwork_congr h, advanceCursor, advanceCursor, h.rcur, waSize_congr h]

end

/-! The mix of one STEP. -/

/-- The voice loop adds to the dry mix every voice's contribution, and to the bus the contributions of
the voices that send (R213). -/
theorem stepVoices_bus (cfg : Config) (ram : Memory) (blocks : Nat) (vs : List Voice) (m : MixBus) :
    let outs := vs.map (voiceStep cfg ram blocks)
    let sent := outs.filter fun o => o.voice.rsend
    (stepVoices cfg ram blocks vs m).2 =
      { dryL := m.dryL + (outs.map (·.left)).sum
        dryR := m.dryR + (outs.map (·.right)).sum
        revL := m.revL + (sent.map (·.left)).sum
        revR := m.revR + (sent.map (·.right)).sum } := by
  induction vs generalizing m with
  | nil => simp [stepVoices]
  | cons v vs ih =>
    simp only [stepVoices, ih, MixBus.add]
    cases hsend : (voiceStep cfg ram blocks v).voice.rsend <;> simp [hsend, add_assoc]

/-- The external sample joins the dry mix under EXT_EN, and the bus under EXT_REVERB_EN too (R214). -/
theorem addExt_eq (s : State) (ext : Stereo) (m : MixBus) :
    let xl := if s.extEn then ext.left.toInt * s.xvolL.toInt / 32768 else 0
    let xr := if s.extEn then ext.right.toInt * s.xvolR.toInt / 32768 else 0
    addExt s ext m =
      { dryL := m.dryL + xl
        dryR := m.dryR + xr
        revL := m.revL + if s.extReverbEn then xl else 0
        revR := m.revR + if s.extReverbEn then xr else 0 } := by
  cases hen : s.extEn
  · simp [addExt, hen]
  · cases hrev : s.extReverbEn <;> simp [addExt, MixBus.add, hen, hrev, scale_eq_div]

/-- The reverb stage writes the Reverb Unit's RAM, cursor and output under REVERB_EN (R215). -/
theorem runReverb_eq (m : MixBus) (s : State) :
    let rev := reverbProcess (sat16 m.revL) (sat16 m.revR) s
    runReverb m s =
      { s with
        ram := if s.reverbEn then rev.1.ram else s.ram
        rcur := if s.reverbEn then rev.1.rcur else s.rcur
        routL := if s.reverbEn then rev.2.left else s.routL
        routR := if s.reverbEn then rev.2.right else s.routR } := by
  by_cases hen : s.reverbEn = true
  · simp only [runReverb, if_pos hen]
    let rev := reverbProcess (sat16 m.revL) (sat16 m.revR) s
    exact congrArg (fun t : State => { t with routL := rev.2.left, routR := rev.2.right })
      (reverbProcess_state (sat16 m.revL) (sat16 m.revR) s)
  · simp only [runReverb, if_neg hen]

/-- The response of STEP: the mix with the unit's output under REVERB_EN, scaled by the master volume and
saturated once, each side 0 under MUTE (R215 to R217). -/
theorem stereoValue_outputPair_runReverb (s : State) (m : MixBus) :
    let rev := reverbProcess (sat16 m.revL) (sat16 m.revR) s
    stereoValue (outputPair (runReverb m s) m) =
      (if s.mute then 0 else
        satRule ((m.dryL + if s.reverbEn then rev.2.left.toInt else 0) * s.mvolL.toInt / 32768)) ++
      (if s.mute then 0 else
        satRule ((m.dryR + if s.reverbEn then rev.2.right.toInt else 0) * s.mvolR.toInt / 32768)) := by
  rw [runReverb_eq]
  cases hmute : s.mute
  · cases hen : s.reverbEn <;>
      simp [outputPair, addReverb, stereoValue, scale_eq_div, sat16_eq_satRule]
  · simp [outputPair, stereoValue]

/-- The sums of one STEP: the voices' and the external sample's (R213, R214). -/
def stepBus (cfg : Config) (ext : Stereo) (s : State) : MixBus :=
  addExt s ext (stepVoices cfg s.ram (nBlocks s) s.voices ⟨0, 0, 0, 0⟩).2

/-- The sums of one STEP are those of `stepRule`. -/
theorem stepBus_eq (cfg : Config) (ext : Stereo) (s : State) :
    let outs := s.voices.map (voiceStep cfg s.ram (nBlocks s))
    let sent := outs.filter fun o => o.voice.rsend
    let xl := if s.extEn then ext.left.toInt * s.xvolL.toInt / 32768 else 0
    let xr := if s.extEn then ext.right.toInt * s.xvolR.toInt / 32768 else 0
    stepBus cfg ext s =
      { dryL := (outs.map (·.left)).sum + xl
        dryR := (outs.map (·.right)).sum + xr
        revL := (sent.map (·.left)).sum + if s.extReverbEn then xl else 0
        revR := (sent.map (·.right)).sum + if s.extReverbEn then xr else 0 } := by
  simp only [stepBus, addExt_eq, stepVoices_bus, zero_add]

/-- The frame of one STEP, answered: the voices stepped, then the Reverb Unit on the bus, then the
response (R210). -/
theorem answered_stepFrame_eq (cfg : Config) (ext : Stereo) (s : State) :
    let bus := stepBus cfg ext s
    let rev := reverbProcess (sat16 bus.revL) (sat16 bus.revR) s
    let mixL := bus.dryL + if s.reverbEn then rev.2.left.toInt else 0
    let mixR := bus.dryR + if s.reverbEn then rev.2.right.toInt else 0
    let outL : S16 := if s.mute then 0 else satRule (mixL * s.mvolL.toInt / 32768)
    let outR : S16 := if s.mute then 0 else satRule (mixR * s.mvolR.toInt / 32768)
    answered (okWord (stereoValue (stepFrame cfg ext s).2)) (stepFrame cfg ext s).1 =
      { s with
        voices := (s.voices.map (voiceStep cfg s.ram (nBlocks s))).map (·.voice)
        ram := if s.reverbEn then rev.1.ram else s.ram
        rcur := if s.reverbEn then rev.1.rcur else s.rcur
        routL := if s.reverbEn then rev.2.left else s.routL
        routR := if s.reverbEn then rev.2.right else s.routR
        cycle := s.cycle + 1
        resp := some (okWord (outL ++ outR)) } := by
  have hrev (l r vs) := reverbProcess_congr (s := s) (t := { s with voices := vs })
    ⟨rfl, rfl, rfl, rfl, rfl, rfl, rfl⟩ l r
  dsimp only [stepFrame, answered]
  rw [stereoValue_outputPair_runReverb, runReverb_eq, stepVoices_voices, List.map_map]
  dsimp only
  rw [hrev]
  rfl

/-- The frame of a polled STEP, answered, is the state of `stepRule` (R210 to R218). -/
theorem answered_stepFrame_eq_stepRule (cfg : Config) (s : State) :
    answered (okWord (stereoValue (stepFrame cfg (pollExt s).1 (pollExt s).2).2))
      (stepFrame cfg (pollExt s).1 (pollExt s).2).1 = stepRule cfg s := by
  have hrev (l r ext n) := reverbProcess_congr (s := s) (t := { s with extIn := ext, extCalls := n })
    ⟨rfl, rfl, rfl, rfl, rfl, rfl, rfl⟩ l r
  rw [pollExt_eq, answered_stepFrame_eq, stepBus_eq]
  dsimp only
  rw [hrev, reverbProcess_eq_reverbRule]
  rfl

/-- STEP of a live engine answers `stepRule`, whatever the filter table and the interpolator (R11). -/
theorem execStepWith_of_live (cfg : Config) {s : State} (h : s.live = true) :
    execStepWith cfg s = .next (stepRule cfg s) := by
  rw [execStepWith, ifLive_of_live _ h]
  exact congrArg _ (answered_stepFrame_eq_stepRule cfg s)

/-- Settles O5: the two cases of the command queue, empty and not. -/
theorem stepRunsDecodedInstruction : Obligations.StepRunsDecodedInstruction :=
  ⟨fun _ hnil => stepOf_of_no_command hnil, fun _ _ _ _ hcons hdec => stepOf_of_legal hcons hdec⟩

/-- Settles O28: the faults by the lifecycle check, the effect by the stages of R210, and the Reverb Unit
by the correspondence of its parts. -/
theorem stepResult : Obligations.StepResult :=
  ⟨decode_fields 0x03 0 0, fun _ hdead => ifLive_of_dead _ hdead,
    fun _ hlive => execStepWith_of_live defaultConfig hlive,
    fun cfg _ hlive => execStepWith_of_live cfg hlive, reverbProcess_eq_reverbRule⟩

end Sys2Proof.Machine
end

section
/-! PROOFS. The shapes of the 38 operations: each is a voice write, a voice read, a global write, a global
read, a RAM access, INIT, DESTROY or STEP. Proofs about every operation go by these cases. -/

namespace Sys2Proof.Machine

/-- The operations that change voice `n`, and the change (R141, R142, R230 to R235). -/
inductive VoiceWrite : Instr → Nat → (Voice → Voice) → Prop
  | kon (n : Nat) : VoiceWrite (.kon n) n keyOn
  | koff (n : Nat) : VoiceWrite (.koff n) n keyOff
  | rate (n : Nat) (imm : U16) : VoiceWrite (.wrVrate n imm) n fun v => { v with rate := imm }
  | volL (n : Nat) (imm : S16) : VoiceWrite (.wrVvoll n imm) n fun v => { v with volL := imm }
  | volR (n : Nat) (imm : S16) : VoiceWrite (.wrVvolr n imm) n fun v => { v with volR := imm }
  | adsr (n : Nat) (imm : Word32) : VoiceWrite (.wrVadsr n imm) n fun v => { v with adsr := imm }
  | start (n : Nat) (imm : Word32) : VoiceWrite (.wrVstart n imm) n fun v => { v with start := imm }
  | flags (n : Nat) (imm : BitVec 2) : VoiceWrite (.wrVflags n imm) n (setVoiceFlags imm)

/-- The operations that change a global register, and the change (R237 to R246). -/
inductive GlobalWrite : Instr → (State → State) → Prop
  | mvolL (imm : S16) : GlobalWrite (.wrMvoll imm) fun s => { s with mvolL := imm }
  | mvolR (imm : S16) : GlobalWrite (.wrMvolr imm) fun s => { s with mvolR := imm }
  | rvolL (imm : S16) : GlobalWrite (.wrRvoll imm) fun s => { s with rvolL := imm }
  | rvolR (imm : S16) : GlobalWrite (.wrRvolr imm) fun s => { s with rvolR := imm }
  | xvolL (imm : S16) : GlobalWrite (.wrXvoll imm) fun s => { s with xvolL := imm }
  | xvolR (imm : S16) : GlobalWrite (.wrXvolr imm) fun s => { s with xvolR := imm }
  | ctrl (imm : BitVec 4) : GlobalWrite (.wrCtrl imm) (setCtrl imm)
  | rbase (imm : Word32) : GlobalWrite (.wrRbase imm) fun s => { s with rbase := imm, rcur := 0 }
  | rr (k : Fin 32) (imm : U16) :
      GlobalWrite (.wrRreg k imm) fun s => { s with rr := s.rr.set k.val imm k.isLt }
  | extCb (imm : BitVec 1) : GlobalWrite (.setExtcb imm) fun s => { s with extCb := imm.getLsbD 0 }

/-- The values that the global register reads answer with (R257 to R265). -/
inductive GlobalRead : (State → Word32) → Prop
  | mvolL : GlobalRead fun s => halfValue s.mvolL
  | mvolR : GlobalRead fun s => halfValue s.mvolR
  | rvolL : GlobalRead fun s => halfValue s.rvolL
  | rvolR : GlobalRead fun s => halfValue s.rvolR
  | xvolL : GlobalRead fun s => halfValue s.xvolL
  | xvolR : GlobalRead fun s => halfValue s.xvolR
  | ctrl : GlobalRead ctrlValue
  | rbase : GlobalRead fun s => s.rbase
  | rr (k : Fin 32) : GlobalRead fun s => halfValue (s.rr.get k)

/-- The shared operation that is the meaning of an operation in a configuration. -/
inductive Shape (cfg : Config) : Instr → (State → Answer) → Prop
  | init (nv size : Nat) : Shape cfg (.init nv size) (execInit nv size)
  | destroy : Shape cfg .destroy execDestroy
  | step : Shape cfg .step (execStepWith cfg)
  | ramWr (b : Byte) (addr : Nat) : Shape cfg (.ramWr b addr) (execRamWr b addr)
  | ramRd (addr : Nat) : Shape cfg (.ramRd addr) (execRamRd addr)
  | voiceWrite {i : Instr} {n : Nat} {f : Voice → Voice} (hw : VoiceWrite i n f) :
      Shape cfg i (changeVoice n f)
  | voiceRead {i : Instr} (n : Nat) (f : Voice → Word32) : Shape cfg i (readVoice n f)
  | globalWrite {i : Instr} {f : State → State} (hw : GlobalWrite i f) : Shape cfg i (changeGlobal f)
  | globalRead {i : Instr} {f : State → Word32} (hr : GlobalRead f) : Shape cfg i (readGlobal f)

/-- Every operation has one of the shapes. -/
theorem execWith_shape (cfg : Config) (i : Instr) : Shape cfg i (execWith cfg i) := by
  cases i with
  | init nv size => exact .init nv size
  | destroy => exact .destroy
  | step => exact .step
  | kon n => exact .voiceWrite (.kon n)
  | koff n => exact .voiceWrite (.koff n)
  | setExtcb imm => exact .globalWrite (.extCb imm)
  | wrVrate n imm => exact .voiceWrite (.rate n imm)
  | wrVvoll n imm => exact .voiceWrite (.volL n imm)
  | wrVvolr n imm => exact .voiceWrite (.volR n imm)
  | wrVadsr n imm => exact .voiceWrite (.adsr n imm)
  | wrVstart n imm => exact .voiceWrite (.start n imm)
  | wrVflags n imm => exact .voiceWrite (.flags n imm)
  | wrMvoll imm => exact .globalWrite (.mvolL imm)
  | wrMvolr imm => exact .globalWrite (.mvolR imm)
  | wrRvoll imm => exact .globalWrite (.rvolL imm)
  | wrRvolr imm => exact .globalWrite (.rvolR imm)
  | wrXvoll imm => exact .globalWrite (.xvolL imm)
  | wrXvolr imm => exact .globalWrite (.xvolR imm)
  | wrCtrl imm => exact .globalWrite (.ctrl imm)
  | wrRbase imm => exact .globalWrite (.rbase imm)
  | wrRreg k imm => exact .globalWrite (.rr k imm)
  | ramWr b addr => exact .ramWr b addr
  | ramRd addr => exact .ramRd addr
  | rdVrate n => exact .voiceRead n _
  | rdVvoll n => exact .voiceRead n _
  | rdVvolr n => exact .voiceRead n _
  | rdVadsr n => exact .voiceRead n _
  | rdVstart n => exact .voiceRead n _
  | rdVflags n => exact .voiceRead n _
  | rdMvoll => exact .globalRead .mvolL
  | rdMvolr => exact .globalRead .mvolR
  | rdRvoll => exact .globalRead .rvolL
  | rdRvolr => exact .globalRead .rvolR
  | rdXvoll => exact .globalRead .xvolL
  | rdXvolr => exact .globalRead .xvolR
  | rdCtrl => exact .globalRead .ctrl
  | rdRbase => exact .globalRead .rbase
  | rdRreg k => exact .globalRead (.rr k)

/-- The state in which an operation leaves the machine: only the response is new (a fault or a read), or
the operation's one change has been made. -/
inductive Effect (cfg : Config) (s : State) : Instr → State → Prop
  | answer (i : Instr) (w : Word) : Effect cfg s i (answered w s)
  | init {nv size : Nat} (hdead : s.live = false) (hlegal : legalParams nv size = true) :
      Effect cfg s (.init nv size) (answered (okWord 0) (initState nv size s))
  | destroy : Effect cfg s .destroy (answered (okWord 0) (withEngine State.reset s))
  | step (hlive : s.live = true) : Effect cfg s .step (stepRule cfg s)
  | ramWr {b : Byte} {addr : Nat} (hlive : s.live = true) (haddr : addr < s.ramSize) :
      Effect cfg s (.ramWr b addr)
        (answered (okWord 0) { s with ram := Memory.write s.ram addr b })
  | voiceWrite {i : Instr} {n : Nat} {f : Voice → Voice} {v : Voice} (hw : VoiceWrite i n f)
      (hlive : s.live = true) (hv : s.voices[n]? = some v) :
      Effect cfg s i (answered (okWord 0) (setVoice n (f v) s))
  | globalWrite {i : Instr} {f : State → State} (hw : GlobalWrite i f) (hlive : s.live = true) :
      Effect cfg s i (answered (okWord 0) (f s))

theorem Effect.of_faulted {cfg : Config} {s t : State} (i : Instr) (h : Faulted s t) :
    Effect cfg s i t := by
  obtain ⟨f, rfl⟩ := h
  exact .answer i _

/-- Everything an operation can do, in any configuration. -/
theorem execWith_effect {cfg : Config} {i : Instr} {s t : State} (h : execWith cfg i s = .next t) :
    Effect cfg s i t := by
  have hshape := execWith_shape cfg i
  generalize execWith cfg i = run at h hshape
  cases hshape with
  | init nv size =>
    obtain hf | ⟨hdead, hlegal, rfl⟩ := execInit_cases h
    · exact .of_faulted _ hf
    · exact .init hdead hlegal
  | destroy =>
    obtain hf | ⟨-, h⟩ := ifLive_cases h
    · exact .of_faulted _ hf
    · exact next_inj h ▸ .destroy
  | step =>
    obtain hf | ⟨hlive, -⟩ := execStepWith_cases h
    · exact .of_faulted _ hf
    · rw [execStepWith_of_live cfg hlive] at h
      exact next_inj h ▸ .step hlive
  | ramWr b addr =>
    obtain hf | ⟨hlive, haddr, h⟩ := withAddress_cases h
    · exact .of_faulted _ hf
    · exact next_inj h ▸ .ramWr hlive haddr
  | ramRd addr =>
    obtain hf | ⟨-, -, h⟩ := withAddress_cases h
    · exact .of_faulted _ hf
    · exact next_inj h ▸ .answer _ _
  | voiceWrite hw =>
    obtain hf | ⟨v, hlive, hv, rfl⟩ := changeVoice_cases h
    · exact .of_faulted _ hf
    · exact .voiceWrite hw hlive hv
  | voiceRead n f =>
    obtain hf | ⟨v, -, -, rfl⟩ := readVoice_cases h
    · exact .of_faulted _ hf
    · exact .answer _ _
  | globalWrite hw =>
    obtain hf | ⟨hlive, rfl⟩ := changeGlobal_cases h
    · exact .of_faulted _ hf
    · exact .globalWrite hw hlive
  | globalRead hr =>
    obtain hf | ⟨-, rfl⟩ := readGlobal_cases h
    · exact .of_faulted _ hf
    · exact .answer _ _

end Sys2Proof.Machine
end

section
/-! PROOFS. The invariant of spec file 10 (rule R47): the ranges of a voice through its step, RAM and the
cursor through the Reverb Unit, then every operation, every step and every run. -/

namespace Sys2Proof.Machine

/-! The ranges of a voice. -/

theorem Voice.reset_ok : Voice.reset.Ok := by
  constructor <;> decide

/-- A stopped or freshly keyed voice: level and wait zero. -/
theorem Voice.Ok.of_silent {v : Voice} (hlevel : v.level = 0) (hwait : v.envWait = 0)
    (hfrac : v.frac ≤ 0xFFF) (hsidx : v.sidx ≤ 28) : v.Ok where
  level := by omega
  frac := hfrac
  sidx := hsidx
  silentOff _ := hlevel
  envWait := by omega

theorem keyOff_of_off {v : Voice} (h : v.phase = .off) : keyOff v = v := if_pos h

theorem keyOff_of_not_off {v : Voice} (h : v.phase ≠ .off) :
    keyOff v = { v with phase := .release, envWait := 0 } := if_neg h

theorem keyOff_ok {v : Voice} (h : v.Ok) : (keyOff v).Ok := by
  by_cases hoff : v.phase = .off
  · rwa [keyOff_of_off hoff]
  · rw [keyOff_of_not_off hoff]
    exact { h with silentOff := nofun, envWait := Nat.zero_le _ }

/-- No operation on a voice takes it out of its ranges. -/
theorem VoiceWrite.ok {i : Instr} {n : Nat} {f : Voice → Voice} (hw : VoiceWrite i n f) {v : Voice}
    (h : v.Ok) : (f v).Ok := by
  cases hw with
  | kon => exact .of_silent rfl rfl (Nat.zero_le _) (Nat.le_refl _)
  | koff => exact keyOff_ok h
  | _ => exact ⟨h.level, h.frac, h.sidx, h.silentOff, h.envWait⟩

/-- The phase advance keeps a fraction below one sample (R150). -/
theorem advancePhase_ok {v : Voice} (h : v.Ok) : (advancePhase v).1.Ok :=
  { h with frac := Nat.le_of_lt_succ (Nat.mod_lt _ (by omega)) }

/-- A block fetch starts the block, and leaves the envelope alone or stops the voice (R152). -/
theorem fetchBlock_ok (cfg : Config) (ram : Memory) (blocks : Nat) {v : Voice} (h : v.Ok) :
    (fetchBlock cfg ram blocks v).Ok := by
  obtain ⟨hsidx, hfrac⟩ := fetchBlock_position cfg ram blocks v
  have hsidx' : (fetchBlock cfg ram blocks v).sidx ≤ 28 := by omega
  have hfrac' : (fetchBlock cfg ram blocks v).frac ≤ 0xFFF := hfrac ▸ h.frac
  obtain ⟨hphase, hlevel, hwait⟩ | ⟨-, hlevel, hwait⟩ := fetchBlock_envelope cfg ram blocks v
  · exact ⟨hlevel ▸ h.level, hfrac', hsidx', fun hoff => hlevel ▸ h.silentOff (hphase ▸ hoff),
      hwait ▸ h.envWait⟩
  · exact .of_silent hlevel hwait hfrac' hsidx'

/-- One sample boundary: an exhausted block is fetched before its first sample is consumed, so no sample
past the last is counted (R148, R151). -/
theorem crossBoundary_ok (cfg : Config) (ram : Memory) (blocks : Nat) {v : Voice} (h : v.Ok) :
    (crossBoundary cfg ram blocks v).Ok := by
  have consume {w : Voice} (hw : w.Ok) (hlt : w.sidx < 28) :
      (if w.phase = .off then w else { w with sidx := w.sidx + 1 }).Ok := by
    split
    · exact hw
    · exact { hw with sidx := hlt }
  unfold crossBoundary
  by_cases hlast : v.sidx = 28
  · rw [if_pos hlast]
    refine consume (fetchBlock_ok cfg ram blocks h) ?_
    rw [(fetchBlock_position cfg ram blocks v).1]
    omega
  · rw [if_neg hlast]
    exact consume h (Nat.lt_of_le_of_ne h.sidx hlast)

theorem crossBoundaries_ok (cfg : Config) (ram : Memory) (blocks n : Nat) {v : Voice} (h : v.Ok) :
    (crossBoundaries cfg ram blocks n v).Ok := by
  induction n generalizing v with
  | zero => exact h
  | succ n ih =>
    unfold crossBoundaries
    split
    · exact h
    · exact ih (crossBoundary_ok cfg ram blocks h)

/-- Every shift of the table of R160 has five bits. -/
theorem envRow_shift_lt {p : Phase} {d : Word32} {row : EnvRow} (h : envRow p d = some row) :
    row.shift < 32 := by
  cases p with
  | off => cases h
  | attack => cases h; exact (d.extractLsb' 10 5).isLt
  | decay => cases h; exact Nat.lt_of_lt_of_le (d.extractLsb' 4 4).isLt (by omega)
  | sustain => cases h; exact (d.extractLsb' 24 5).isLt
  | release => cases h; exact (d.extractLsb' 16 5).isLt

/-- A wait is at most that of the largest shift, four times over (R35, R163). -/
theorem envCycles_le {row : EnvRow} (h : row.shift < 32) (level : Nat) :
    envCycles row level ≤ 4 * 2 ^ 20 := by
  have hpow : 2 ^ (row.shift - 11) ≤ 2 ^ 20 := Nat.pow_le_pow_right (by omega) (by omega)
  unfold envCycles
  dsimp only
  split <;> omega

/-- One change of the level clamps it, and stops a release at level 0 (R161, R164, R166). -/
theorem envChange_ok {row : EnvRow} {v : Voice} (h : v.Ok) (hshift : row.shift < 32)
    (hrun : v.phase ≠ .off) : (envChange row v).Ok := by
  have hlevel : (clamp (v.level + envStep row v.level) 0 levelMax).toNat ≤ levelMax := by
    have := clamp_le (v.level + envStep row v.level) 0 levelMax (by omega)
    omega
  unfold envChange
  dsimp only
  split
  · exact ⟨hlevel, h.frac, h.sidx, nofun, Nat.zero_le _⟩
  · split
    · exact ⟨hlevel, h.frac, h.sidx, nofun, Nat.zero_le _⟩
    · split
      next hstop => exact .of_silent hstop.2 rfl h.frac h.sidx
      next =>
        exact ⟨hlevel, h.frac, h.sidx, fun hoff => absurd hoff hrun, envCycles_le hshift _⟩

theorem envTick_ok {v : Voice} (h : v.Ok) : (envTick v).Ok := by
  unfold envTick
  split
  · exact h
  next row hrow =>
    split
    · exact { h with envWait := Nat.le_trans (Nat.sub_le _ _) h.envWait }
    · have hrun : v.phase ≠ .off := fun hoff => by rw [hoff] at hrow; cases hrow
      exact envChange_ok h (envRow_shift_lt hrow) hrun

/-- A step of a voice keeps its ranges, in every configuration (R148). -/
theorem voiceStep_ok (cfg : Config) (ram : Memory) (blocks : Nat) {v : Voice} (h : v.Ok) :
    (voiceStep cfg ram blocks v).voice.Ok := by
  have hwalk := crossBoundaries_ok cfg ram blocks (advancePhase v).2 (advancePhase_ok h)
  obtain ⟨-, e⟩ | ⟨-, -, -, e⟩ | ⟨-, -, -, e⟩ := voiceStep_voice_cases cfg ram blocks v <;> rw [e]
  · exact h
  · exact hwalk
  · exact envTick_ok hwalk

/-! RAM and the cursor. -/

/-- A RAM of this size in canonical form, with no cell outside it (R37). -/
structure RamOk (size : Nat) (m : Memory) : Prop where
  wf : Memory.wf m
  extent : ∀ c ∈ m, c.1 < size

theorem RamOk.write {size a : Nat} {m : Memory} (h : RamOk size m) (v : Byte) (ha : a < size) :
    RamOk size (Memory.write m a v) where
  wf := wf_write m a v h.wf
  extent c hc := by
    obtain rfl | hc := address_of_mem_write m a v c hc
    · exact ha
    · exact h.extent c hc

theorem RamOk.write16 {size a : Nat} {m : Memory} (h : RamOk size m) (v : BitVec 16)
    (ha : a + 1 < size) : RamOk size (Memory.write16 m a v) :=
  (h.write _ (Nat.lt_of_succ_lt ha)).write _ ha

/-- A cursor at an even offset inside a work area of this size, where that is positive (R69). -/
structure CursorOk (size : Int) (cursor : Nat) : Prop where
  even : cursor % 2 = 0
  inside : 0 < size → (cursor : Int) < size

theorem cursorOk_zero (size : Int) : CursorOk size 0 := ⟨rfl, id⟩

theorem State.Inv.ramOk {s : State} (h : s.Inv) : RamOk s.ramSize s.ram := ⟨h.ramWf, h.ramExtent⟩

theorem State.Inv.cursorOk {s : State} (h : s.Inv) : CursorOk (waSize s) s.rcur :=
  ⟨h.cursorEven, h.cursorInside⟩

theorem State.Inv.waSize_even {s : State} (h : s.Inv) : waSize s % 2 = 0 := by
  have := h.sizeMultiple
  unfold waSize
  omega

/-- The remainder by a positive even work area: an even offset inside it, if the dividend is even. -/
theorem emod_even_bounds {x size : Int} (hpos : 0 < size) (hsize : size % 2 = 0) (hx : x % 2 = 0) :
    0 ≤ x % size ∧ x % size < size ∧ x % size % 2 = 0 := by
  refine ⟨Int.emod_nonneg x (by omega), Int.emod_lt_of_pos x hpos, ?_⟩
  rw [Int.emod_emod_of_dvd x (Int.dvd_of_emod_eq_zero hsize), hx]

/-- The two bytes at a register's displacement are inside RAM (R66, R68). -/
theorem revAddr_disp_in_ram {s : State} (h : s.Inv) (harea : 0 < waSize s) (k : RevReg) :
    revAddr s (disp s k) + 1 < s.ramSize := by
  have hrcur := h.cursorEven
  have hwaEven := h.waSize_even
  obtain ⟨hnonneg, hlt, heven⟩ := emod_even_bounds (x := s.rcur + disp s k) harea hwaEven
    (by unfold disp; omega)
  unfold revAddr waBase
  generalize (s.rcur + disp s k) % waSize s = offset at hnonneg hlt heven
  unfold waSize at harea hlt hwaEven
  omega

theorem revWrite_disp_ramOk {s : State} (h : s.Inv) (harea : 0 < waSize s) {m : Memory}
    (hm : RamOk s.ramSize m) (k : RevReg) (v : S16) :
    RamOk s.ramSize (revWrite s m (disp s k) v) :=
  hm.write16 v (revAddr_disp_in_ram h harea k)

theorem reflections_ramOk {s : State} (h : s.Inv) (harea : 0 < waSize s) (l r : S16) {m : Memory}
    (hm : RamOk s.ramSize m) : RamOk s.ramSize (reflections s l r m) := by
  have store {m : Memory} (hm : RamOk s.ramSize m) (inp : S16) (d k : RevReg) :
      RamOk s.ramSize (reflect s inp d k m) := revWrite_disp_ramOk h harea hm k _
  exact store (store (store (store hm _ _ _) _ _ _) _ _ _) _ _ _

/-- The network stores at eight displacements, all of them inside RAM (R197). -/
theorem reverbNetwork_ramOk {s : State} (h : s.Inv) (harea : 0 < waSize s) (l r : S16) :
    RamOk s.ramSize (reverbNetwork s l r).1 := by
  have store {m : Memory} (hm : RamOk s.ramSize m) (x : S16) (k d g : RevReg) :
      RamOk s.ramSize (allPass s x k d g m).1 := revWrite_disp_ramOk h harea hm k _
  have hrefl := reflections_ramOk h harea l r h.ramOk
  exact store (store (store (store hrefl _ _ _ _) _ _ _ _) _ _ _ _) _ _ _ _

/-- The cursor advances by a sample and wraps (R196). -/
theorem advanceCursor_ok {s : State} (h : s.Inv) (harea : 0 < waSize s) :
    CursorOk (waSize s) (advanceCursor s) := by
  have hrcur := h.cursorEven
  obtain ⟨hnonneg, hlt, heven⟩ := emod_even_bounds (x := s.rcur + 2) harea h.waSize_even (by omega)
  unfold advanceCursor
  exact ⟨by omega, fun _ => by omega⟩

/-- The Reverb Unit keeps RAM and the cursor in their ranges, with a work area and without (R69, R183). -/
theorem reverbProcess_ok {s : State} (h : s.Inv) (l r : S16) :
    RamOk s.ramSize (reverbProcess l r s).1.ram ∧
      CursorOk (waSize s) (reverbProcess l r s).1.rcur := by
  by_cases hnone : waSize s ≤ 0
  · rw [reverbProcess_of_no_area l r hnone]
    exact ⟨h.ramOk, h.cursorOk⟩
  · rw [reverbProcess_of_area l r hnone]
    exact ⟨reverbNetwork_ramOk h (by omega) l r, advanceCursor_ok h (by omega)⟩

/-! The invariant of the machine. -/

/-- A live engine of the size and the number of voices of one that meets the invariant meets it too, if
its RAM, its cursor and its voices are in range. -/
theorem State.Inv.of_live {s t : State} (h : s.Inv) (hs : s.live = true) (ht : t.live = true)
    (hsize : t.ramSize = s.ramSize) (hcount : t.voices.length = s.voices.length)
    (hvoices : ∀ v ∈ t.voices, v.Ok) (hram : RamOk t.ramSize t.ram)
    (hcursor : CursorOk (waSize t) t.rcur) : t.Inv where
  ramWf := hram.wf
  ramExtent := hram.extent
  sizeMultiple := hsize ▸ h.sizeMultiple
  sizeMax := hsize ▸ h.sizeMax
  sizeMin _ := hsize ▸ h.sizeMin hs
  voiceCount := hcount ▸ h.voiceCount
  voicesOk := hvoices
  cursorEven := hcursor.even
  cursorInside := hcursor.inside
  deadEmpty hdead := absurd (ht.symm.trans hdead) nofun

/-- The invariant is about the engine: the host's side may be any other. -/
theorem State.Inv.withHost {s : State} (h : s.Inv) (host : State) : (withEngine s host).Inv where
  ramWf := h.ramWf
  ramExtent := h.ramExtent
  sizeMultiple := h.sizeMultiple
  sizeMax := h.sizeMax
  sizeMin := h.sizeMin
  voiceCount := h.voiceCount
  voicesOk := h.voicesOk
  cursorEven := h.cursorEven
  cursorInside := h.cursorInside
  deadEmpty hdead := (congrArg (withEngine · host) (h.deadEmpty hdead)).trans rfl

theorem State.Inv.answered {s : State} (h : s.Inv) (w : Word) : (answered w s).Inv :=
  h.withHost (Machine.answered w s)

/-- Settles O9: field by field of `State.reset`. -/
theorem invariantAtReset : Obligations.InvariantAtReset :=
  show State.reset.Inv from
  { ramWf := wf_nil
    ramExtent := nofun
    sizeMultiple := rfl
    sizeMax := Nat.zero_le _
    sizeMin := nofun
    voiceCount := Nat.zero_le _
    voicesOk := nofun
    cursorEven := rfl
    cursorInside := id
    deadEmpty _ := rfl }

/-- The parameters that INIT accepts, as R306 states them. -/
theorem legalParams_iff (nv size : Nat) :
    legalParams nv size = true ↔
      nv ≤ 24 ∧ 16 ≤ size ∧ size % 16 = 0 ∧ size ≤ 0xFFFFFFF0 := by
  simp [legalParams, maxVoices, maxRamSize, and_assoc]

theorem initState_inv {nv size : Nat} (hlegal : legalParams nv size = true) (s : State) :
    (initState nv size s).Inv := by
  obtain ⟨hnv, hmin, hmultiple, hmax⟩ := (legalParams_iff nv size).1 hlegal
  exact
    { ramWf := wf_nil
      ramExtent := nofun
      sizeMultiple := hmultiple
      sizeMax := hmax
      sizeMin := fun _ => hmin
      voiceCount := (List.length_replicate (n := nv) (a := Voice.reset)).symm ▸ hnv
      voicesOk := fun v hv => List.eq_of_mem_replicate hv ▸ Voice.reset_ok
      cursorEven := rfl
      cursorInside := id
      deadEmpty := nofun }

theorem setVoice_inv {s : State} (h : s.Inv) (hlive : s.live = true) (n : Nat) {v : Voice}
    (hv : v.Ok) : (setVoice n v s).Inv :=
  h.of_live hlive hlive rfl List.length_set
    (fun w hw => (List.mem_or_eq_of_mem_set hw).elim (h.voicesOk w) fun e => e ▸ hv)
    h.ramOk h.cursorOk

theorem ramWrite_inv {s : State} (h : s.Inv) (hlive : s.live = true) {addr : Nat}
    (haddr : addr < s.ramSize) (b : Byte) :
    ({ s with ram := Memory.write s.ram addr b } : State).Inv :=
  h.of_live hlive hlive rfl rfl h.voicesOk (h.ramOk.write b haddr) h.cursorOk

/-- No write of a global register leaves the ranges: a new base moves the cursor to 0 (R244). -/
theorem GlobalWrite.inv {i : Instr} {f : State → State} (hw : GlobalWrite i f) {s : State}
    (h : s.Inv) (hlive : s.live = true) : (f s).Inv := by
  cases hw with
  | rbase imm => exact h.of_live hlive hlive rfl rfl h.voicesOk h.ramOk (cursorOk_zero _)
  | _ => exact h.of_live hlive hlive rfl rfl h.voicesOk h.ramOk h.cursorOk

/-- STEP keeps the invariant: the voices step inside their ranges, and the Reverb Unit alone changes RAM
and the cursor (R210). -/
theorem stepRule_inv (cfg : Config) {s : State} (h : s.Inv) (hlive : s.live = true) :
    (stepRule cfg s).Inv := by
  have hreverb (l r : S16) := reverbProcess_eq_reverbRule l r s ▸ reverbProcess_ok h l r
  refine h.of_live hlive hlive rfl ?_ ?_ ?_ ?_
  · simp [stepRule]
  · intro w hw
    simp only [stepRule, List.map_map, List.mem_map] at hw
    obtain ⟨v, hv, rfl⟩ := hw
    exact voiceStep_ok cfg s.ram _ (h.voicesOk v hv)
  · show RamOk s.ramSize (if s.reverbEn then _ else _)
    split
    · exact (hreverb _ _).1
    · exact h.ramOk
  · show CursorOk (waSize s) (if s.reverbEn then _ else _)
    split
    · exact (hreverb _ _).2
    · exact h.cursorOk

theorem Effect.inv {cfg : Config} {s t : State} {i : Instr} (he : Effect cfg s i t) (h : s.Inv) :
    t.Inv := by
  cases he with
  | answer i w => exact h.answered w
  | init hdead hlegal => exact (initState_inv hlegal s).answered _
  | destroy => exact (invariantAtReset.withHost s).answered _
  | step hlive => exact stepRule_inv cfg h hlive
  | ramWr hlive haddr =>
    exact (ramWrite_inv h hlive haddr _).answered _
  | voiceWrite hw hlive hv =>
    exact (setVoice_inv h hlive _ (hw.ok (h.voicesOk _ (List.mem_of_getElem? hv)))).answered _
  | globalWrite hw hlive => exact (hw.inv h hlive).answered _

theorem stepWith_inv (cfg : Config) {s t : State} (h : s.Inv) (hstep : stepWith cfg s = .next t) :
    t.Inv := by
  obtain ⟨-, rfl⟩ | ⟨w, rest, -, ⟨e, -, rfl⟩ | ⟨i, -, hrun⟩⟩ := stepOf_cases hstep
  · exact h
  · exact (h.withHost { s with cmds := rest }).answered _
  · exact (execWith_effect hrun).inv (h.withHost { s with cmds := rest })

theorem step_inv {s t : State} (h : s.Inv) (hstep : step s = .next t) : t.Inv :=
  stepWith_inv defaultConfig h (stepWith_default ▸ hstep)

/-- Settles O8: by the effect of each operation. -/
theorem invariantKept : Obligations.InvariantKept :=
  ⟨fun _ _ => step_inv, fun cfg _ _ => stepWith_inv cfg⟩

/-- What every step of a machine keeps holds at the end of every run that starts with it. -/
theorem run_keeps {M : Host.Core} {P : M.State → Prop}
    (hstep : ∀ s t, P s → M.step s = .next t → P t) (n : Nat) {s t : M.State} (h : P s)
    (hrun : M.run n s = .next t) : P t := by
  induction n generalizing s with
  | zero => cases hrun; exact h
  | succ n ih =>
    unfold Host.Core.run at hrun
    split at hrun
    next hnext => exact ih (hstep _ _ h hnext) hrun
    all_goals cases hrun

/-- Settles O10: the invariant holds along the run, and gives the ranges. -/
theorem rangesAlongEveryRun : Obligations.RangesAlongEveryRun := by
  intro cmds answers n t hrun _
  have hstart : ({ State.reset with cmds := cmds, extIn := answers } : State).Inv :=
    invariantAtReset.withHost { State.reset with cmds := cmds, extIn := answers }
  have h : t.Inv := run_keeps (M := Sys2Proof.core) (fun _ _ => step_inv) n hstart hrun
  exact ⟨fun v hv => ⟨(h.voicesOk v hv).level, (h.voicesOk v hv).frac, (h.voicesOk v hv).sidx,
    (h.voicesOk v hv).silentOff⟩, h.cursorEven, h.cursorInside⟩

end Sys2Proof.Machine
end

section
/-! PROOFS. INIT (spec file 43, rule R220): its two faults, and the reset values of R48. -/

namespace Sys2Proof.Machine

theorem execInit_of_live (nv size : Nat) {s : State} (h : s.live = true) :
    execInit nv size s = raise .alreadyLive s := if_pos h

theorem execInit_of_illegal {nv size : Nat} {s : State} (hdead : s.live = false)
    (h : ¬ legalParams nv size = true) : execInit nv size s = raise .configFault s := by
  rw [execInit, hdead, if_neg Bool.false_ne_true, if_neg h]

theorem execInit_of_legal {nv size : Nat} {s : State} (hdead : s.live = false)
    (h : legalParams nv size = true) : execInit nv size s = respond 0 (initState nv size s) := by
  rw [execInit, hdead, if_neg Bool.false_ne_true, if_pos h]

theorem vector_get_replicate {α : Type} {n : Nat} (x : α) (j : Fin n) :
    (Vector.replicate n x).get j = x :=
  Vector.getElem_replicate j.isLt

/-- Settles O11: one clause for each outcome of INIT, and the reset values as `initState` holds them. -/
theorem initResult : Obligations.InitResult := by
  refine ⟨fun nv size => decode_fields 0x01 nv size, fun nv size s =>
    ⟨fun hlive => execInit_of_live nv size hlive, fun hdead hillegal => ?_,
      fun hdead hnv hmin hmultiple hmax => ?_⟩⟩
  · exact execInit_of_illegal hdead (by rw [legalParams_iff]; omega)
  · have hlegal := (legalParams_iff nv size).2 ⟨hnv, hmin, hmultiple, hmax⟩
    refine ⟨_, execInit_of_legal hdead hlegal, rfl, rfl, List.length_replicate, rfl, fun _ => rfl,
      fun v hv => ?_, rfl, rfl, rfl, rfl, rfl, rfl, rfl, rfl, rfl, rfl, rfl, rfl, rfl, rfl, rfl, rfl,
      vector_get_replicate 0, rfl, rfl, rfl, rfl⟩
    obtain rfl := List.eq_of_mem_replicate hv
    exact ⟨rfl, rfl, rfl, rfl, rfl, rfl, rfl, rfl, vector_get_replicate 0, vector_get_replicate 0,
      rfl, rfl, rfl, rfl, rfl, rfl, rfl⟩

end Sys2Proof.Machine
end

section
/-! PROOFS. The access table of spec file 10 (rule R49): what each operation leaves unchanged, first of a
voice, then of the state. -/

namespace Sys2Proof.Machine

/-- Two voices agree on a piece of state; a piece that no voice holds is the same in any two. -/
def Voice.SamePart (v w : Voice) : Part → Prop
  | .rate => w.rate = v.rate
  | .volume => (w.volL, w.volR) = (v.volL, v.volR)
  | .adsr => w.adsr = v.adsr
  | .start => w.start = v.start
  | .flags => (w.disabled, w.rsend) = (v.disabled, v.rsend)
  | .playback =>
    (w.cur, w.next, w.loop, w.hist, w.pcm, w.sidx, w.frac)
      = (v.cur, v.next, v.loop, v.hist, v.pcm, v.sidx, v.frac)
  | .envelope => (w.phase, w.level, w.envWait) = (v.phase, v.level, v.envWait)
  | _ => True

theorem Voice.samePart_refl (v : Voice) (p : Part) : Voice.SamePart v v p := by
  cases p <;> constructor

/-- KOFF writes the phase and the wait only (R142). -/
theorem keyOff_frame (v : Voice) :
    keyOff v = { v with phase := (keyOff v).phase, envWait := (keyOff v).envWait } := by
  by_cases hoff : v.phase = .off
  · rw [keyOff_of_off hoff]
  · rw [keyOff_of_not_off hoff]

/-- A voice operation leaves alone what its row of the table does not name. -/
theorem VoiceWrite.samePart {i : Instr} {n : Nat} {f : Voice → Voice} (hw : VoiceWrite i n f)
    {p : Part} (hp : mayWrite i p = false) (v : Voice) : Voice.SamePart v (f v) p := by
  have hsame := v.samePart_refl p
  cases hw with
  | kon =>
    cases p with
    | playback | envelope => cases hp
    | _ => exact hsame
  | koff =>
    rw [keyOff_frame]
    cases p with
    | envelope => cases hp
    | _ => exact hsame
  | rate =>
    cases p with
    | rate => cases hp
    | _ => exact hsame
  | volL | volR =>
    cases p with
    | volume => cases hp
    | _ => exact hsame
  | adsr =>
    cases p with
    | adsr => cases hp
    | _ => exact hsame
  | start =>
    cases p with
    | start => cases hp
    | _ => exact hsame
  | flags =>
    cases p with
    | flags => cases hp
    | _ => exact hsame

/-- A step of a voice writes its playback position and its envelope only. -/
theorem voiceStep_samePart (cfg : Config) (ram : Memory) (blocks : Nat) (v : Voice) {p : Part}
    (hp : mayWrite .step p = false) :
    Voice.SamePart v (voiceStep cfg ram blocks v).voice p := by
  obtain ⟨hrate, hvolL, hvolR, hadsr, hstart, hdisabled, hrsend⟩ :=
    voiceStep_registers cfg ram blocks v
  have hsame := v.samePart_refl p
  cases p with
  | rate => exact hrate
  | volume => exact Prod.ext hvolL hvolR
  | adsr => exact hadsr
  | start => exact hstart
  | flags => exact Prod.ext hdisabled hrsend
  | playback | envelope => cases hp
  | _ => exact hsame

theorem samePart_refl (s : State) (p : Part) : samePart s s p := by
  cases p <;> simp [samePart]

/-- No response is a piece of the table. -/
theorem samePart_answered {s t : State} {p : Part} (w : Word) (h : samePart s t p) :
    samePart s (answered w t) p := by
  cases p <;> exact h

theorem map_eq_of_forall₂ {α β : Type} {g : α → β} {l l' : List α}
    (h : List.Forall₂ (fun a b => g b = g a) l l') : l'.map g = l.map g := by
  induction h with
  | nil => rfl
  | cons hab _ ih => rw [List.map_cons, List.map_cons, hab, ih]

/-- Where only the voices change, a piece on which each voice agrees with the one before is the same. -/
theorem samePart_of_voices {s : State} {vs : List Voice} {p : Part}
    (h : List.Forall₂ (Voice.SamePart · · p) s.voices vs) :
    samePart s { s with voices := vs } p := by
  have hsame := samePart_refl s p
  cases p with
  | live => exact ⟨rfl, rfl, h.length_eq.symm⟩
  | rate | volume | adsr | start | flags | playback | envelope => exact map_eq_of_forall₂ h
  | _ => exact hsame

theorem forall₂_set {α : Type} {R : α → α → Prop} (hrefl : ∀ a, R a a) {l : List α} {n : Nat}
    {a b : α} (ha : l[n]? = some a) (hab : R a b) : List.Forall₂ R l (l.set n b) := by
  induction l generalizing n with
  | nil => cases ha
  | cons x xs ih =>
    cases n with
    | zero =>
      cases ha
      exact .cons hab (List.forall₂_same.2 fun y _ => hrefl y)
    | succ n => exact .cons (hrefl x) (ih ha)

/-- A global write leaves alone what its row of the table does not name. -/
theorem GlobalWrite.samePart {i : Instr} {f : State → State} (hw : GlobalWrite i f) {p : Part}
    (hp : mayWrite i p = false) (s : State) : samePart s (f s) p := by
  have hsame := samePart_refl s p
  cases hw with
  | mvolL | mvolR =>
    cases p with
    | mvol => cases hp
    | _ => exact hsame
  | rvolL | rvolR =>
    cases p with
    | rvol => cases hp
    | _ => exact hsame
  | xvolL | xvolR =>
    cases p with
    | xvol => cases hp
    | _ => exact hsame
  | ctrl =>
    cases p with
    | ctrl => cases hp
    | _ => exact hsame
  | rbase =>
    cases p with
    | rbase | rcur => cases hp
    | _ => exact hsame
  | rr =>
    cases p with
    | rr => cases hp
    | _ => exact hsame
  | extCb =>
    cases p with
    | extCb => cases hp
    | _ => exact hsame

/-- STEP leaves alone what its row of the table does not name: it changes the voices as their step
allows, and besides them only RAM, the cursor, ROUT and CYCLE. -/
theorem stepRule_samePart (cfg : Config) (s : State) {p : Part} (hp : mayWrite .step p = false) :
    samePart s (stepRule cfg s) p := by
  have hvoices : samePart s { s with voices := (stepRule cfg s).voices } p := by
    refine samePart_of_voices ?_
    simp only [stepRule, List.map_map, List.forall₂_map_right_iff, List.forall₂_same]
    exact fun v _ => voiceStep_samePart cfg s.ram _ v hp
  cases p with
  | ram | rcur | rout | cycle => cases hp
  | _ => exact hvoices

theorem Effect.samePart {cfg : Config} {s t : State} {i : Instr} (he : Effect cfg s i t) {p : Part}
    (hp : mayWrite i p = false) : samePart s t p := by
  have hsame := samePart_refl s p
  cases he with
  | answer i w => exact samePart_answered w hsame
  | init => cases hp
  | destroy => cases hp
  | step => exact stepRule_samePart cfg s hp
  | ramWr =>
    refine samePart_answered _ ?_
    cases p with
    | ram => cases hp
    | _ => exact hsame
  | voiceWrite hw _ hv =>
    exact samePart_answered _ (samePart_of_voices
      (forall₂_set (Voice.samePart_refl · p) hv (hw.samePart hp _)))
  | globalWrite hw => exact samePart_answered _ (hw.samePart hp s)

/-- Settles O25: by the effect of each operation. -/
theorem accessMatrix : Obligations.AccessMatrix := by
  intro i s t p hexec hp
  rw [← execWith_default] at hexec
  exact (execWith_effect hexec).samePart hp

end Sys2Proof.Machine
end

section
/-! PROOFS. CYCLE and ROUT are hidden (spec file 10, rules R41 and R44): two states that differ in them
alone take steps to two states that differ in them alone, so every response is the same. -/

namespace Sys2Proof.Machine

/-- Two states differ at most in CYCLE and ROUT. -/
def SameVisible (s t : State) : Prop :=
  ∃ (c : Nat) (l r : S16), t = { s with cycle := c, routL := l, routR := r }

/-- Two answers are next states that differ at most in CYCLE and ROUT. -/
def AnswersAlike (a b : Answer) : Prop := ∃ s t, a = .next s ∧ b = .next t ∧ SameVisible s t

section
variable {s t : State} (h : SameVisible s t)
include h

theorem SameVisible.live : t.live = s.live := by obtain ⟨c, l, r, rfl⟩ := h; rfl

theorem SameVisible.ramSize : t.ramSize = s.ramSize := by obtain ⟨c, l, r, rfl⟩ := h; rfl

theorem SameVisible.ram : t.ram = s.ram := by obtain ⟨c, l, r, rfl⟩ := h; rfl

theorem SameVisible.voices : t.voices = s.voices := by obtain ⟨c, l, r, rfl⟩ := h; rfl

theorem SameVisible.cmds : t.cmds = s.cmds := by obtain ⟨c, l, r, rfl⟩ := h; rfl

theorem SameVisible.resp : t.resp = s.resp := by obtain ⟨c, l, r, rfl⟩ := h; rfl

/-! Updates of the state: none copies CYCLE or ROUT to another field. -/

theorem SameVisible.answered (w : Word) : SameVisible (answered w s) (answered w t) := by
  obtain ⟨c, l, r, rfl⟩ := h
  exact ⟨c, l, r, rfl⟩

theorem SameVisible.withCmds (rest : List Word) :
    SameVisible { s with cmds := rest } { t with cmds := rest } := by
  obtain ⟨c, l, r, rfl⟩ := h
  exact ⟨c, l, r, rfl⟩

theorem SameVisible.withRam (m : Memory) :
    SameVisible { s with ram := m } { t with ram := m } := by
  obtain ⟨c, l, r, rfl⟩ := h
  exact ⟨c, l, r, rfl⟩

theorem SameVisible.setVoice (n : Nat) (v : Voice) :
    SameVisible (setVoice n v s) (setVoice n v t) := by
  obtain ⟨c, l, r, rfl⟩ := h
  exact ⟨c, l, r, rfl⟩

/-- An engine made anew takes from the state before it the host's side only. -/
theorem SameVisible.withEngine (e : State) : SameVisible (withEngine e s) (withEngine e t) := by
  obtain ⟨c, l, r, rfl⟩ := h
  exact ⟨e.cycle, e.routL, e.routR, rfl⟩

theorem GlobalWrite.sameVisible {i : Instr} {f : State → State} (hw : GlobalWrite i f) :
    SameVisible (f s) (f t) := by
  obtain ⟨c, l, r, rfl⟩ := h
  cases hw with
  | _ => exact ⟨c, l, r, rfl⟩

/-- No register read is of CYCLE or ROUT. -/
theorem GlobalRead.sameVisible {f : State → Word32} (hr : GlobalRead f) : f t = f s := by
  obtain ⟨c, l, r, rfl⟩ := h
  cases hr with
  | _ => rfl

/-- STEP adds one to CYCLE and writes or keeps ROUT; the Reverb Unit reads neither. -/
theorem SameVisible.stepRule (cfg : Config) : SameVisible (stepRule cfg s) (stepRule cfg t) := by
  obtain ⟨c, l, r, rfl⟩ := h
  have hreverb (inL inR : S16) := reverbProcess_congr (s := s)
    (t := { s with cycle := c, routL := l, routR := r }) ⟨rfl, rfl, rfl, rfl, rfl, rfl, rfl⟩ inL inR
  simp only [reverbProcess_eq_reverbRule] at hreverb
  unfold Machine.stepRule
  dsimp only
  simp only [hreverb]
  exact ⟨_, _, _, rfl⟩

/-! The shared operations. -/

theorem respond_alike (v : Word32) : AnswersAlike (respond v s) (respond v t) :=
  ⟨_, _, rfl, rfl, h.answered _⟩

theorem raise_alike (f : Fault) : AnswersAlike (raise f s) (raise f t) :=
  ⟨_, _, rfl, rfl, h.answered _⟩

theorem ifLive_alike {k k' : Answer} (hk : AnswersAlike k k') :
    AnswersAlike (ifLive s k) (ifLive t k') := by
  rw [ifLive, ifLive, h.live]
  split
  · exact hk
  · exact raise_alike h _

theorem withVoice_alike (n : Nat) {k k' : Voice → Answer} (hk : ∀ v, AnswersAlike (k v) (k' v)) :
    AnswersAlike (withVoice n s k) (withVoice n t k') := by
  refine ifLive_alike h ?_
  rw [h.voices]
  cases s.voices[n]? with
  | none => exact raise_alike h _
  | some v => exact hk v

theorem withAddress_alike (addr : Nat) {k k' : Answer} (hk : AnswersAlike k k') :
    AnswersAlike (withAddress addr s k) (withAddress addr t k') := by
  refine ifLive_alike h ?_
  rw [h.ramSize]
  split
  · exact hk
  · exact raise_alike h _

theorem execInit_alike (nv size : Nat) :
    AnswersAlike (execInit nv size s) (execInit nv size t) := by
  rw [execInit, execInit, h.live]
  split
  · exact raise_alike h _
  · split
    · exact respond_alike (h.withEngine _) _
    · exact raise_alike h _

theorem execStepWith_alike (cfg : Config) :
    AnswersAlike (execStepWith cfg s) (execStepWith cfg t) := by
  cases hs : s.live with
  | false =>
    exact ⟨_, _, ifLive_of_dead _ hs, ifLive_of_dead _ (h.live.trans hs), h.answered _⟩
  | true =>
    exact ⟨_, _, execStepWith_of_live cfg hs, execStepWith_of_live cfg (h.live.trans hs),
      h.stepRule cfg⟩

theorem Shape.alike {cfg : Config} {i : Instr} {run : State → Answer} (hshape : Shape cfg i run) :
    AnswersAlike (run s) (run t) := by
  cases hshape with
  | init nv size => exact execInit_alike h nv size
  | destroy => exact ifLive_alike h (respond_alike (h.withEngine _) _)
  | step => exact execStepWith_alike h cfg
  | ramWr b addr =>
    refine withAddress_alike h addr (respond_alike ?_ _)
    rw [h.ram]
    exact h.withRam _
  | ramRd addr =>
    refine withAddress_alike h addr ?_
    rw [h.ram]
    exact respond_alike h _
  | voiceWrite hw => exact withVoice_alike h _ fun v => respond_alike (h.setVoice _ _) _
  | voiceRead n f => exact withVoice_alike h n fun v => respond_alike h _
  | globalWrite hw => exact ifLive_alike h (respond_alike (hw.sameVisible h) _)
  | globalRead hr =>
    refine ifLive_alike h ?_
    rw [hr.sameVisible h]
    exact respond_alike h _

theorem stepWith_alike (cfg : Config) : AnswersAlike (stepWith cfg s) (stepWith cfg t) := by
  have ht := h.cmds
  cases hs : s.cmds with
  | nil =>
    exact ⟨s, t, stepOf_of_no_command hs, stepOf_of_no_command (ht.trans hs), h⟩
  | cons w rest =>
    rw [stepWith, stepWith]
    cases hdec : decode w with
    | error e =>
      rw [stepOf_of_illegal hs hdec, stepOf_of_illegal (ht.trans hs) hdec]
      exact raise_alike (h.withCmds rest) _
    | ok i =>
      rw [stepOf_of_legal hs hdec, stepOf_of_legal (ht.trans hs) hdec]
      exact (execWith_shape cfg i).alike (h.withCmds rest)

end

theorem responsesOf_eq_of_sameVisible (cfg : Config) (n : Nat) {s t : State}
    (h : SameVisible s t) : responsesOf (stepWith cfg) n t = responsesOf (stepWith cfg) n s := by
  induction n generalizing s t with
  | zero => rfl
  | succ n ih =>
    obtain ⟨s', t', hs, ht, h'⟩ := stepWith_alike h cfg
    rw [responsesOf_succ_of_next n hs, responsesOf_succ_of_next n ht, h'.resp, ih h']

/-- Settles O33: the responses of two runs whose states differ at most in CYCLE and ROUT. -/
theorem cycleAndRoutAreHidden : Obligations.CycleAndRoutAreHidden := by
  intro s c l r n
  have h (cfg : Config) := responsesOf_eq_of_sameVisible cfg n (s := s) ⟨c, l, r, rfl⟩
  exact ⟨by simpa only [stepWith_default] using h defaultConfig, h⟩

end Sys2Proof.Machine
end

section
/-! PROOFS. What a voice reads of RAM (spec file 20, rules R61 and R77): a fetch reads the sixteen bytes of
its block, and one step of a voice fetches at most once (rule R151). -/

namespace Sys2Proof.Machine

/-- The sixteen bytes of a block are read, and nothing else (R61, R76). -/
theorem readBlock_congr {m m' : Memory} {a : Nat}
    (h : ∀ j, j < 16 → Memory.read m (a + j) = Memory.read m' (a + j)) :
    Memory.readBlock m a = Memory.readBlock m' a := by
  ext j hj
  rw [readBlock_getElem, readBlock_getElem, h j hj]

theorem fetchBlock_congr (cfg : Config) {ram ram' : Memory} {blocks : Nat} {v : Voice}
    (h : Memory.readBlock ram (16 * (v.next % blocks))
      = Memory.readBlock ram' (16 * (v.next % blocks))) :
    fetchBlock cfg ram blocks v = fetchBlock cfg ram' blocks v := by
  rw [fetchBlock, fetchBlock, h]

/-- Inside a block a running voice consumes a sample and reads nothing (R151). -/
theorem crossBoundary_inside (cfg : Config) (ram : Memory) (blocks : Nat) {v : Voice}
    (hrun : v.phase ≠ .off) (hlt : v.sidx < 28) :
    crossBoundary cfg ram blocks v = { v with sidx := v.sidx + 1 } := by
  simp only [crossBoundary, if_neg (Nat.ne_of_lt hlt), if_neg hrun]

/-- At the end of a block the boundary depends on RAM by its fetch only (R151). -/
theorem crossBoundary_at_end_congr (cfg : Config) {ram ram' : Memory} {blocks : Nat} {v : Voice}
    (hend : v.sidx = 28)
    (h : Memory.readBlock ram (16 * (v.next % blocks))
      = Memory.readBlock ram' (16 * (v.next % blocks))) :
    crossBoundary cfg ram blocks v = crossBoundary cfg ram' blocks v := by
  simp only [crossBoundary, if_pos hend, fetchBlock_congr cfg h]

/-- After a fetch at most one sample of the new block is consumed at the same boundary (R151, R152). -/
theorem crossBoundary_at_end_sidx (cfg : Config) (ram : Memory) (blocks : Nat) {v : Voice}
    (hend : v.sidx = 28) : (crossBoundary cfg ram blocks v).sidx ≤ 1 := by
  have hsidx := (fetchBlock_position cfg ram blocks v).1
  simp only [crossBoundary, if_pos hend]
  split
  · omega
  · exact Nat.le_of_eq (congrArg (· + 1) hsidx)

/-- A walk of at most 28 boundaries ends inside the block or fetches once, and the only block it fetches
is the one at NEXT. -/
theorem crossBoundaries_congr (cfg : Config) {ram ram' : Memory} {blocks n : Nat} {v : Voice}
    (hsidx : v.sidx ≤ 28) (hn : n ≤ 28)
    (h : v.sidx + n ≤ 28 ∨
      Memory.readBlock ram (16 * (v.next % blocks))
        = Memory.readBlock ram' (16 * (v.next % blocks))) :
    crossBoundaries cfg ram blocks n v = crossBoundaries cfg ram' blocks n v := by
  induction n generalizing v with
  | zero => rfl
  | succ n ih =>
    by_cases hoff : v.phase = .off
    · simp only [crossBoundaries, if_pos hoff]
    simp only [crossBoundaries, if_neg hoff]
    by_cases hend : v.sidx = 28
    · have hblock := h.resolve_left (by omega)
      have hnew := crossBoundary_at_end_sidx cfg ram' blocks hend
      rw [crossBoundary_at_end_congr cfg hend hblock]
      exact ih (by omega) (by omega) (.inl (by omega))
    · have hlt : v.sidx < 28 := Nat.lt_of_le_of_ne hsidx hend
      rw [crossBoundary_inside cfg ram blocks hoff hlt, crossBoundary_inside cfg ram' blocks hoff hlt]
      exact ih hlt (by omega) (h.imp_left fun hle => by dsimp only; omega)

/-- Settles O45: a step crosses at most four boundaries (R150), a walk that fetches at most once. -/
theorem stepReadsNextBlockOnly : Obligations.StepReadsNextBlockOnly := by
  intro cfg ram ram' blocks v hfrac hsidx h
  have hwalk : crossBoundaries cfg ram blocks (advancePhase v).2 (advancePhase v).1 =
      crossBoundaries cfg ram' blocks (advancePhase v).2 (advancePhase v).1 :=
    crossBoundaries_congr cfg hsidx (by simp only [advancePhase, rateMax]; omega)
      (h.imp_right readBlock_congr)
  simp only [voiceStep, hwalk]

end Sys2Proof.Machine
end

section
/-! PROOFS. The accesses of the Reverb Unit (spec file 20, rules R63 to R69): its displacements stay inside
the work area, a 16-bit write is two bytes, and the network stores at eight addresses (rule R197). -/

namespace Sys2Proof.Machine

/-! The displacements of R68. -/

theorem isDisplacement_disp (s : State) (k : RevReg) : IsDisplacement (disp s k) :=
  ⟨s.rr.get k, 0, .inl rfl⟩

theorem isDisplacement_disp_sub_two (s : State) (k : RevReg) : IsDisplacement (disp s k - 2) :=
  ⟨s.rr.get k, 0, .inr (.inl rfl)⟩

theorem isDisplacement_disp_sub_disp (s : State) (k j : RevReg) :
    IsDisplacement (disp s k - disp s j) :=
  ⟨s.rr.get k, s.rr.get j, .inr (.inr rfl)⟩

theorem IsDisplacement.even {d : Int} (h : IsDisplacement d) : d % 2 = 0 := by
  obtain ⟨m, n, rfl | rfl | rfl⟩ := h <;> omega

/-- Both bytes of an access are in the work area, the first at an even address (R66, R69). -/
theorem revAddr_in_area {s : State} (h : s.Inv) (harea : 0 < waSize s) {d : Int}
    (hd : IsDisplacement d) :
    revAddr s d % 2 = 0 ∧ 8 * s.rbase.toNat ≤ revAddr s d ∧ revAddr s d + 2 ≤ s.ramSize := by
  have hrcur := h.cursorEven
  have hdEven := hd.even
  have hwaEven := h.waSize_even
  obtain ⟨hnonneg, hlt, heven⟩ := emod_even_bounds (x := s.rcur + d) harea hwaEven (by omega)
  unfold revAddr waBase
  generalize (s.rcur + d) % waSize s = offset at hnonneg hlt heven
  unfold waSize at harea hlt hwaEven
  omega

/-! What the host reads of a 16-bit write. -/

theorem byteValue_eq_setWidth (b : Byte) : byteValue b = b.setWidth 32 := by
  rw [byteValue, BitVec.setWidth_eq_append (by omega), BitVec.cast_eq]

/-- RAM_RD inside RAM answers with the byte (R271). -/
theorem execRamRd_of_lt {s : State} {addr : Nat} (hlive : s.live = true) (haddr : addr < s.ramSize) :
    execRamRd addr s
      = .next (answered (okWord ((Memory.read s.ram addr).setWidth 32)) s) := by
  rw [execRamRd, withAddress_of_lt _ hlive haddr, respond_eq, byteValue_eq_setWidth]

/-- The first byte of a 16-bit write is the low one (R64). -/
theorem read_write16_low (m : Memory) (a : Nat) (v : BitVec 16) :
    (Memory.read (Memory.write16 m a v) a).toNat = v.toNat % 256 := by
  rw [read_write16, if_neg (by omega), if_pos rfl, BitVec.extractLsb'_toNat, Nat.shiftRight_zero]

/-- The second byte of a 16-bit write is the high one (R64). -/
theorem read_write16_high (m : Memory) (a : Nat) (v : BitVec 16) :
    (Memory.read (Memory.write16 m a v) (a + 1)).toNat = v.toNat / 256 := by
  have hv := v.isLt
  rw [read_write16, if_pos rfl, BitVec.extractLsb'_toNat, Nat.shiftRight_eq_div_pow]
  omega

/-- Settles O27: both bytes are inside RAM, so RAM_RD answers with them. -/
theorem reverbWriteReadByHost : Obligations.ReverbWriteReadByHost := by
  intro s d v hinv hlive harea hd t
  obtain ⟨-, -, hin⟩ := revAddr_in_area hinv harea hd
  refine ⟨?_, ?_, read16_write16_same s.ram (revAddr s d) v⟩
  · rw [← read_write16_low s.ram (revAddr s d) v, BitVec.ofNat_toNat]
    exact execRamRd_of_lt (s := t) hlive (Nat.lt_of_succ_lt hin)
  · rw [← read_write16_high s.ram (revAddr s d) v, BitVec.ofNat_toNat]
    exact execRamRd_of_lt (s := t) hlive hin

/-! Where STEP stores. -/

/-- A 16-bit write of the unit touches its two bytes only (R63). -/
theorem read_revWrite_other {s : State} {d : Int} {a : Nat} (m : Memory) (v : S16)
    (h : a ≠ revAddr s d ∧ a ≠ revAddr s d + 1) :
    Memory.read (revWrite s m d v) a = Memory.read m a :=
  read_write16_other m _ a v (by omega)

/-- A reflection stores at its own register's address only (R185). -/
theorem read_reflect_other {s : State} {k : RevReg} {a : Nat} (inp : S16) (d : RevReg) (m : Memory)
    (h : a ≠ revAddr s (disp s k) ∧ a ≠ revAddr s (disp s k) + 1) :
    Memory.read (reflect s inp d k m) a = Memory.read m a :=
  read_revWrite_other m _ h

/-- An all-pass stage stores at its own register's address only (R191). -/
theorem read_allPass_other {s : State} {k : RevReg} {a : Nat} (x : S16) (d g : RevReg) (m : Memory)
    (h : a ≠ revAddr s (disp s k) ∧ a ≠ revAddr s (disp s k) + 1) :
    Memory.read (allPass s x k d g m).1 a = Memory.read m a :=
  read_revWrite_other m _ h

/-- The network stores at its eight addresses only (R197). -/
theorem read_reverbNetwork_other {s : State} {a : Nat} (l r : S16)
    (h : ∀ b ∈ reverbStores s, a ≠ b ∧ a ≠ b + 1) :
    Memory.read (reverbNetwork s l r).1 a = Memory.read s.ram a := by
  have hapart (k : RevReg) (hk : k ∈ reverbTargets) :
      a ≠ revAddr s (disp s k) ∧ a ≠ revAddr s (disp s k) + 1 := h _ (List.mem_map_of_mem hk)
  dsimp only [reverbNetwork, reflections]
  rw [read_allPass_other _ _ _ _ (hapart mRAPF2 (by decide)),
    read_allPass_other _ _ _ _ (hapart mLAPF2 (by decide)),
    read_allPass_other _ _ _ _ (hapart mRAPF1 (by decide)),
    read_allPass_other _ _ _ _ (hapart mLAPF1 (by decide)),
    read_reflect_other _ _ _ (hapart mRDIFF (by decide)),
    read_reflect_other _ _ _ (hapart mLDIFF (by decide)),
    read_reflect_other _ _ _ (hapart mRSAME (by decide)),
    read_reflect_other _ _ _ (hapart mLSAME (by decide))]

theorem read_reverbProcess_other {s : State} {a : Nat} (l r : S16)
    (h : ∀ b ∈ reverbStores s, a ≠ b ∧ a ≠ b + 1) :
    Memory.read (reverbProcess l r s).1.ram a = Memory.read s.ram a := by
  by_cases hnone : waSize s ≤ 0
  · rw [reverbProcess_of_no_area l r hnone]
  · rw [reverbProcess_of_area l r hnone]
    exact read_reverbNetwork_other l r h

/-- RAM after a STEP is what the Reverb Unit leaves, if it runs (R61, R215). -/
theorem stepRule_ram (cfg : Config) (s : State) :
    ∃ l r, (stepRule cfg s).ram = if s.reverbEn then (reverbProcess l r s).1.ram else s.ram := by
  simp only [reverbProcess_eq_reverbRule]
  exact ⟨_, _, rfl⟩

/-- Settles O29: a STEP that faults stores nothing, any other stores what the Reverb Unit stores. -/
theorem stepStoresOnlyAtReverbTargets : Obligations.StepStoresOnlyAtReverbTargets := by
  intro s t hexec
  obtain ⟨f, rfl⟩ | ⟨hlive, -⟩ := execStepWith_cases hexec
  · exact ⟨fun _ => rfl, fun _ _ => rfl⟩
  obtain rfl := next_inj ((execStepWith_of_live defaultConfig hlive).symm.trans hexec)
  obtain ⟨l, r, hram⟩ := stepRule_ram defaultConfig s
  rw [hram]
  cases hen : s.reverbEn with
  | false => exact ⟨fun _ => rfl, fun _ _ => rfl⟩
  | true =>
    refine ⟨?_, fun a ha => read_reverbProcess_other l r ha⟩
    rintro (hoff | hnone)
    · cases hoff
    · rw [if_pos rfl, reverbProcess_of_no_area l r hnone]

end Sys2Proof.Machine
end

section
/-! PROOFS. The engine on two RAMs (spec file 20, rules R61, R66 and R69): where they agree on what the
engine may read, it does the same on both, and what it stores is the same. -/

namespace Sys2Proof.Machine

/-- Two RAMs read the same inside the work area; outside it the second reads as `base`, the RAM the
second run began with. -/
structure SameArea (s : State) (base m m' : Memory) : Prop where
  inside : SameBytes m m' (8 * s.rbase.toNat) s.ramSize
  outside : ∀ a, a < 8 * s.rbase.toNat ∨ s.ramSize ≤ a → Memory.read m' a = Memory.read base a

section
variable {s : State} (h : s.Inv) (harea : 0 < waSize s) {base m m' : Memory}
  (hm : SameArea s base m m')
include h harea hm

theorem SameArea.revRead {d : Int} (hd : IsDisplacement d) : revRead s m' d = revRead s m d := by
  obtain ⟨-, hlo, hhi⟩ := revAddr_in_area h harea hd
  rw [Machine.revRead, Machine.revRead, Memory.read16, Memory.read16,
    hm.inside _ hlo (by omega), hm.inside _ (Nat.le_succ_of_le hlo) (by omega)]

theorem SameArea.revWrite {d : Int} (hd : IsDisplacement d) (v : S16) :
    SameArea s base (revWrite s m d v) (revWrite s m' d v) := by
  obtain ⟨-, hlo, hhi⟩ := revAddr_in_area h harea hd
  constructor
  · intro a ha ha'
    rw [Machine.revWrite, Machine.revWrite, read_write16, read_write16, hm.inside a ha ha']
  · intro a ha
    rw [read_revWrite_other m' v (by omega), hm.outside a ha]

theorem SameArea.reflect (inp : S16) (d k : RevReg) :
    SameArea s base (reflect s inp d k m) (reflect s inp d k m') := by
  dsimp only [Machine.reflect]
  rw [hm.revRead h harea (isDisplacement_disp s d),
    hm.revRead h harea (isDisplacement_disp_sub_two s k)]
  exact hm.revWrite h harea (isDisplacement_disp s k) _

theorem SameArea.reflections (l r : S16) :
    SameArea s base (reflections s l r m) (reflections s l r m') :=
  (((hm.reflect h harea _ _ _).reflect h harea _ _ _).reflect h harea _ _ _).reflect h harea _ _ _

theorem SameArea.comb (k1 k2 k3 k4 : RevReg) : comb s m' k1 k2 k3 k4 = comb s m k1 k2 k3 k4 := by
  simp only [Machine.comb, hm.revRead h harea (isDisplacement_disp s _)]

/-- An all-pass stage gives the same output on both RAMs, and stores the same. -/
theorem SameArea.allPass (x : S16) (k d g : RevReg) :
    ∃ m₂, allPass s x k d g m' = (m₂, (allPass s x k d g m).2) ∧
      SameArea s base (allPass s x k d g m).1 m₂ := by
  dsimp only [Machine.allPass]
  rw [hm.revRead h harea (isDisplacement_disp_sub_disp s k d)]
  exact ⟨_, rfl, hm.revWrite h harea (isDisplacement_disp s k) _⟩

end

/-! The parts of the network read RAM as they are handed it, not from the state. -/

theorem reflections_withRam (s : State) (ram : Memory) :
    reflections { s with ram := ram } = reflections s := rfl

theorem comb_withRam (s : State) (ram : Memory) : comb { s with ram := ram } = comb s := rfl

theorem allPass_withRam (s : State) (ram : Memory) : allPass { s with ram := ram } = allPass s := rfl

/-- The network gives the same output on both RAMs, and stores the same (R197). -/
theorem SameArea.reverbNetwork {s : State} (h : s.Inv) (harea : 0 < waSize s) {ram : Memory}
    (hm : SameArea s ram s.ram ram) (l r : S16) :
    ∃ m, reverbNetwork { s with ram := ram } l r = (m, (reverbNetwork s l r).2) ∧
      SameArea s ram (reverbNetwork s l r).1 m := by
  have hrefl := hm.reflections h harea l r
  have hcomb := hrefl.comb h harea
  dsimp only [Machine.reverbNetwork]
  simp only [reflections_withRam, comb_withRam, allPass_withRam, hcomb]
  obtain ⟨_, hla, hm⟩ := hrefl.allPass h harea _ mLAPF1 dAPF1 vAPF1
  rw [hla]
  obtain ⟨_, hra, hm⟩ := hm.allPass h harea _ mRAPF1 dAPF1 vAPF1
  rw [hra]
  obtain ⟨_, hlb, hm⟩ := hm.allPass h harea _ mLAPF2 dAPF2 vAPF2
  rw [hlb]
  obtain ⟨_, hrb, hm⟩ := hm.allPass h harea _ mRAPF2 dAPF2 vAPF2
  rw [hrb]
  exact ⟨_, rfl, hm⟩

/-- The Reverb Unit does the same on two RAMs that agree on the work area: only the bytes outside it may
differ, and they are left as they were (R69, R183). -/
theorem reverbProcess_withRam {s : State} (h : s.Inv) {ram : Memory}
    (hram : SameBytes s.ram ram (8 * s.rbase.toNat) s.ramSize) (l r : S16) :
    ∃ m, reverbProcess l r { s with ram := ram } =
        ({ (reverbProcess l r s).1 with ram := m }, (reverbProcess l r s).2) ∧
      SameArea s ram (reverbProcess l r s).1.ram m := by
  have hstart : SameArea s ram s.ram ram := ⟨hram, fun _ _ => rfl⟩
  by_cases hnone : waSize s ≤ 0
  · rw [reverbProcess_of_no_area l r hnone,
      reverbProcess_of_no_area l r (s := { s with ram := ram }) hnone]
    exact ⟨ram, rfl, hstart⟩
  · obtain ⟨m, hnet, hm⟩ := hstart.reverbNetwork h (by omega) l r
    rw [reverbProcess_of_area l r hnone, reverbProcess_of_area l r (s := { s with ram := ram }) hnone,
      hnet]
    exact ⟨m, rfl, hm⟩

/-- The Reverb Unit leaves every byte outside the work area as it was. -/
theorem read_reverbProcess_outside {s : State} (h : s.Inv) (l r : S16) {a : Nat}
    (ha : a < 8 * s.rbase.toNat ∨ s.ramSize ≤ a) :
    Memory.read (reverbProcess l r s).1.ram a = Memory.read s.ram a := by
  obtain ⟨m, hself, hm⟩ := reverbProcess_withRam h (ram := s.ram) (fun _ _ _ => rfl) l r
  have hm' : (reverbProcess l r s).1.ram = m := congrArg (·.1.ram) hself
  exact hm' ▸ hm.outside a ha

/-- The sixteen bytes of a block are inside RAM (R66). -/
theorem block_in_ram {s : State} (h : s.Inv) (hlive : s.live = true) (a : Nat) :
    16 * (a % nBlocks s) + 15 < s.ramSize := by
  have hsize := h.sizeMultiple
  have hmin := h.sizeMin hlive
  have hlt : a % nBlocks s < nBlocks s := Nat.mod_lt a (by unfold nBlocks; omega)
  generalize a % nBlocks s = b at hlt
  unfold nBlocks at hlt
  omega

/-- The voices step the same on two RAMs that agree below RAMSIZE: a fetch reads nothing else. -/
theorem map_voiceStep_congr {s : State} (h : s.Inv) (hlive : s.live = true) {ram : Memory}
    (hram : SameBytes s.ram ram 0 s.ramSize) (cfg : Config) :
    s.voices.map (voiceStep cfg ram (nBlocks s)) = s.voices.map (voiceStep cfg s.ram (nBlocks s)) := by
  refine List.map_congr_left fun v hv => ?_
  obtain ⟨-, hfrac, hsidx, -, -⟩ := h.voicesOk v hv
  refine stepReadsNextBlockOnly cfg ram s.ram _ v hfrac hsidx (.inr fun j hj => ?_)
  have hblock := block_in_ram h hlive v.next
  exact hram _ (Nat.zero_le _) (by omega)

/-- STEP depends on RAM by the voices' steps and by the Reverb Unit only: where those do the same, so does
STEP, and RAM is left as the unit leaves it. -/
theorem stepRule_withRam (cfg : Config) {s : State} {ram : Memory}
    (hvoices : s.voices.map (voiceStep cfg ram (nBlocks s))
      = s.voices.map (voiceStep cfg s.ram (nBlocks s)))
    (hreverb : ∀ l r, ∃ m, reverbProcess l r { s with ram := ram } =
      ({ (reverbProcess l r s).1 with ram := m }, (reverbProcess l r s).2)) :
    ∃ l r,
      (stepRule cfg s).ram = (if s.reverbEn then (reverbProcess l r s).1.ram else s.ram) ∧
      stepRule cfg { s with ram := ram } =
        { stepRule cfg s with
          ram := if s.reverbEn then (reverbProcess l r { s with ram := ram }).1.ram else ram } := by
  have hrcur (l r : S16) :
      (reverbProcess l r { s with ram := ram }).1.rcur = (reverbProcess l r s).1.rcur := by
    obtain ⟨m, hm⟩ := hreverb l r
    rw [hm]
  have hout (l r : S16) : (reverbProcess l r { s with ram := ram }).2 = (reverbProcess l r s).2 := by
    obtain ⟨m, hm⟩ := hreverb l r
    rw [hm]
  simp only [reverbProcess_eq_reverbRule, nBlocks] at hrcur hout hvoices ⊢
  refine ⟨_, _, rfl, ?_⟩
  unfold stepRule
  dsimp only
  simp only [hvoices, hrcur, hout]

/-- Two RAMs agree on all of RAM if they agree on the work area and the first reads as `base` below it
too. -/
theorem SameArea.sameBytes {s : State} {base m m' : Memory} (hm : SameArea s base m m')
    (hbelow : ∀ a, a < 8 * s.rbase.toNat → a < s.ramSize → Memory.read base a = Memory.read m a) :
    SameBytes m m' 0 s.ramSize := by
  intro a _ ha
  by_cases hbase : a < 8 * s.rbase.toNat
  · exact (hm.outside a (.inl hbase)).trans (hbelow a hbase ha)
  · exact hm.inside a (Nat.le_of_not_lt hbase) ha

/-- STEP of a live engine on two RAMs that agree below RAMSIZE: the same state and the same bytes, and no
byte from RAMSIZE on is touched. -/
theorem stepRule_sameBytes (cfg : Config) {s : State} (h : s.Inv) (hlive : s.live = true)
    {ram : Memory} (hram : SameBytes s.ram ram 0 s.ramSize) :
    let t := stepRule cfg s
    let u := stepRule cfg { s with ram := ram }
    u = { t with ram := u.ram } ∧ SameBytes t.ram u.ram 0 s.ramSize ∧
      ∀ a, s.ramSize ≤ a → Memory.read u.ram a = Memory.read ram a := by
  have hunit := reverbProcess_withRam h fun a _ ha => hram a (Nat.zero_le a) ha
  obtain ⟨l, r, ht, hu⟩ := stepRule_withRam cfg (map_voiceStep_congr h hlive hram cfg)
    fun l r => (hunit l r).imp fun _ hm => hm.1
  obtain ⟨m, hrev, hm⟩ := hunit l r
  rw [hrev] at hu
  dsimp only
  rw [ht, hu]
  refine ⟨rfl, ?_⟩
  cases hen : s.reverbEn with
  | false => exact ⟨hram, fun _ _ => rfl⟩
  | true =>
    refine ⟨hm.sameBytes fun a hbase ha => ?_, fun a ha => hm.outside a (.inr ha)⟩
    rw [read_reverbProcess_outside h l r (.inl hbase), hram a (Nat.zero_le a) ha]

/-- Settles O26: the ranges by the invariant, the Reverb Unit and STEP by their runs on both RAMs. -/
theorem engineAccessesInRange : Obligations.EngineAccessesInRange := by
  intro s h hlive
  refine ⟨block_in_ram h hlive, fun harea d hd => revAddr_in_area h harea hd,
    fun ram l r hram => ?_, fun cfg ram hram => ?_⟩
  · obtain ⟨m, hrev, hm⟩ := reverbProcess_withRam h hram l r
    dsimp only
    rw [hrev]
    exact ⟨rfl, rfl, hm.inside, hm.outside⟩
  · exact ⟨_, _, execStepWith_of_live cfg hlive, execStepWith_of_live cfg hlive,
      stepRule_sameBytes cfg h hlive hram⟩

end Sys2Proof.Machine
end

section
/-! PROOFS. How operands stand in the fields of a command word (spec file 30, rule R86), the opcode map
of rule R88 as a list of rows, and from these: encode and decode are inverse to each other, and the
legal words are those that the rows of the opcode table select (rule R93). -/

namespace Sys2Proof

open Machine

/-! Fields and bits. -/

/-- Two appended words are equal exactly if their parts are. -/
theorem append_eq_append_iff {m n : Nat} {a c : BitVec m} {b d : BitVec n} :
    a ++ b = c ++ d ↔ a = c ∧ b = d := by
  refine ⟨fun h => ?_, fun ⟨hac, hbd⟩ => by rw [hac, hbd]⟩
  have hhigh := congrArg (BitVec.extractLsb' n m) h
  have hlow := congrArg (BitVec.extractLsb' 0 n) h
  rw [extract_append_high, extract_append_high] at hhigh
  rw [BitVec.extractLsb'_append_eq_right, BitVec.extractLsb'_append_eq_right] at hlow
  exact ⟨hhigh, hlow⟩

/-- A word is its four fields (R85). -/
theorem fields_append (w : Word) : opField w ++ idxField w ++ rsvField w ++ operandField w = w := by
  have hop : opField w ++ idxField w = w.extractLsb' 48 16 :=
    BitVec.extractLsb'_append_extractLsb'_eq_extractLsb' rfl
  have hrsv : w.extractLsb' 48 16 ++ rsvField w = w.extractLsb' 32 32 :=
    BitVec.extractLsb'_append_extractLsb'_eq_extractLsb' rfl
  rw [hop, hrsv]
  exact BitVec.extractLsb'_append_extractLsb' (w := 32) (len := 32)

/-- A mask made of four fields masks each field. -/
theorem and_fields (w : Word) (op idx : BitVec 8) (rsv : BitVec 16) (operand : Word32) :
    w &&& (op ++ idx ++ rsv ++ operand) =
      (opField w &&& op) ++ (idxField w &&& idx) ++ (rsvField w &&& rsv)
        ++ (operandField w &&& operand) := by
  nth_rw 1 [← fields_append w]
  rw [BitVec.and_append, BitVec.and_append, BitVec.and_append]

/-- A word whose `rsv` is zero is made from its other fields. -/
theorem mkWord_fields {w : Word} (h : rsvField w = 0) :
    mkWord (opField w) (idxField w) (operandField w) = w := by
  have hw := fields_append w
  rwa [h] at hw

/-- A field whose high bits are zero is its low part, zero-extended. -/
theorem eq_zero_append {m n : Nat} {x : BitVec (m + n)} (h : x.extractLsb' n m = 0#m) :
    x = 0#m ++ x.extractLsb' 0 n := by
  rw [← h, BitVec.extractLsb'_append_extractLsb']

/-- The mask of the high bits of a field tests them for zero. -/
theorem and_high_eq_zero_iff {m n : Nat} (x : BitVec (m + n)) :
    x &&& (BitVec.allOnes m ++ 0#n) = 0#(m + n) ↔ x.extractLsb' n m = 0#m := by
  have hx : x.extractLsb' n m ++ x.extractLsb' 0 n = x := BitVec.extractLsb'_append_extractLsb'
  have hzero : (0#m ++ 0#n : BitVec (m + n)) = 0#(m + n) := by simp
  rw [← hzero]
  nth_rw 1 [← hx]
  rw [BitVec.and_append, append_eq_append_iff]
  simp

/-! The formats. -/

/-- How an operand of type `α` stands in a field of `w` bits (R86), with the laws that make reading
and writing the field inverse to each other. A format of R86 is a pair of these, for `idx` and
`operand`. -/
structure FieldFormat (w : Nat) (α : Type) where
  /-- The operand has a place in the field. -/
  fits : α → Bool
  put : α → BitVec w
  get : BitVec w → α
  /-- The must-be-zero bits of the field are zero. -/
  zero : BitVec w → Bool
  /-- The must-be-zero bits of the field. -/
  mask : BitVec w
  fits_get : ∀ x, fits (get x) = true
  get_put : ∀ a, fits a = true → get (put a) = a
  put_get : ∀ x, zero x = true → put (get x) = x
  zero_put : ∀ a, zero (put a) = true
  zero_iff : ∀ x, zero x = true ↔ x &&& mask = 0

/-- A field that carries no operand. -/
def FieldFormat.none (w : Nat) : FieldFormat w Unit where
  fits _ := true
  put _ := 0
  get _ := ()
  zero x := x == 0
  mask := BitVec.allOnes w
  fits_get _ := rfl
  get_put _ _ := rfl
  put_get _ h := (eq_of_beq h).symm
  zero_put _ := beq_self_eq_true _
  zero_iff x := by rw [BitVec.and_allOnes, beq_iff_eq]

/-- A field that is the operand. -/
def FieldFormat.whole (w : Nat) : FieldFormat w (BitVec w) where
  fits _ := true
  put x := x
  get x := x
  zero _ := true
  mask := 0
  fits_get _ := rfl
  get_put _ _ := rfl
  put_get _ _ := rfl
  zero_put _ := rfl
  zero_iff x := by simp

/-- A field that carries a voice index or a voice count. -/
def FieldFormat.index : FieldFormat 8 Nat where
  fits := fitsIdx
  put := idxOf
  get x := x.toNat
  zero _ := true
  mask := 0
  fits_get x := decide_eq_true x.isLt
  get_put _ h := Nat.mod_eq_of_lt (of_decide_eq_true h)
  put_get x _ := BitVec.ofNat_toNat 8 x
  zero_put _ := rfl
  zero_iff x := by simp

/-- A field that carries a size or an address. -/
def FieldFormat.address : FieldFormat 32 Nat where
  fits := fitsOperand
  put := operandOf
  get x := x.toNat
  zero _ := true
  mask := 0
  fits_get x := decide_eq_true x.isLt
  get_put _ h := Nat.mod_eq_of_lt (of_decide_eq_true h)
  put_get x _ := BitVec.ofNat_toNat 32 x
  zero_put _ := rfl
  zero_iff x := by simp

/-- A field whose low `n` bits are the operand. -/
def FieldFormat.low (m n : Nat) : FieldFormat (m + n) (BitVec n) where
  fits _ := true
  put x := 0#m ++ x
  get x := x.extractLsb' 0 n
  zero x := x.extractLsb' n m == 0
  mask := BitVec.allOnes m ++ 0#n
  fits_get _ := rfl
  get_put _ _ := BitVec.extractLsb'_append_eq_right
  put_get _ h := (eq_zero_append (eq_of_beq h)).symm
  zero_put _ := beq_iff_eq.2 (extract_append_high _ _)
  zero_iff x := beq_iff_eq.trans (and_high_eq_zero_iff x).symm

/-- A field whose low five bits are a reverb register index. -/
def FieldFormat.register : FieldFormat 8 (Fin 32) where
  fits _ := true
  put k := idxOf k.val
  get := regIndex
  zero x := x.extractLsb' 5 3 == 0
  mask := 0xE0
  fits_get _ := rfl
  get_put k _ := by revert k; decide
  put_get x := by revert x; decide
  zero_put k := by revert k; decide
  zero_iff x := by revert x; decide

/-- A row of the opcode map: an opcode, the formats of its two fields, and its operation. -/
structure OpcodeEntry where
  op : BitVec 8
  {α β : Type}
  idx : FieldFormat 8 α
  operand : FieldFormat 32 β
  instr : α → β → Instr

open FieldFormat in
/-- The opcode map of R88, in the order of the rows of the opcode table. -/
def opcodeMap : List OpcodeEntry :=
  [⟨0x01, index, address, fun nv size => .init nv size⟩,
    ⟨0x02, none 8, none 32, fun _ _ => .destroy⟩,
    ⟨0x03, none 8, none 32, fun _ _ => .step⟩,
    ⟨0x04, index, none 32, fun n _ => .kon n⟩,
    ⟨0x05, index, none 32, fun n _ => .koff n⟩,
    ⟨0x06, none 8, low 31 1, fun _ imm => .setExtcb imm⟩,
    ⟨0x10, index, low 16 16, fun n imm => .wrVrate n imm⟩,
    ⟨0x11, index, low 16 16, fun n imm => .wrVvoll n imm⟩,
    ⟨0x12, index, low 16 16, fun n imm => .wrVvolr n imm⟩,
    ⟨0x13, index, whole 32, fun n imm => .wrVadsr n imm⟩,
    ⟨0x14, index, whole 32, fun n imm => .wrVstart n imm⟩,
    ⟨0x15, index, low 30 2, fun n imm => .wrVflags n imm⟩,
    ⟨0x20, none 8, low 16 16, fun _ imm => .wrMvoll imm⟩,
    ⟨0x21, none 8, low 16 16, fun _ imm => .wrMvolr imm⟩,
    ⟨0x22, none 8, low 16 16, fun _ imm => .wrRvoll imm⟩,
    ⟨0x23, none 8, low 16 16, fun _ imm => .wrRvolr imm⟩,
    ⟨0x24, none 8, low 16 16, fun _ imm => .wrXvoll imm⟩,
    ⟨0x25, none 8, low 16 16, fun _ imm => .wrXvolr imm⟩,
    ⟨0x26, none 8, low 28 4, fun _ imm => .wrCtrl imm⟩,
    ⟨0x27, none 8, whole 32, fun _ imm => .wrRbase imm⟩,
    ⟨0x28, register, low 16 16, fun k imm => .wrRreg k imm⟩,
    ⟨0x30, whole 8, address, fun b addr => .ramWr b addr⟩,
    ⟨0x31, none 8, address, fun _ addr => .ramRd addr⟩,
    ⟨0x90, index, none 32, fun n _ => .rdVrate n⟩,
    ⟨0x91, index, none 32, fun n _ => .rdVvoll n⟩,
    ⟨0x92, index, none 32, fun n _ => .rdVvolr n⟩,
    ⟨0x93, index, none 32, fun n _ => .rdVadsr n⟩,
    ⟨0x94, index, none 32, fun n _ => .rdVstart n⟩,
    ⟨0x95, index, none 32, fun n _ => .rdVflags n⟩,
    ⟨0xA0, none 8, none 32, fun _ _ => .rdMvoll⟩,
    ⟨0xA1, none 8, none 32, fun _ _ => .rdMvolr⟩,
    ⟨0xA2, none 8, none 32, fun _ _ => .rdRvoll⟩,
    ⟨0xA3, none 8, none 32, fun _ _ => .rdRvolr⟩,
    ⟨0xA4, none 8, none 32, fun _ _ => .rdXvoll⟩,
    ⟨0xA5, none 8, none 32, fun _ _ => .rdXvolr⟩,
    ⟨0xA6, none 8, none 32, fun _ _ => .rdCtrl⟩,
    ⟨0xA7, none 8, none 32, fun _ _ => .rdRbase⟩,
    ⟨0xA8, register, none 32, fun k _ => .rdRreg k⟩]

namespace OpcodeEntry

/-- The operation that a row reads from the two fields. -/
def read (e : OpcodeEntry) (idx : BitVec 8) (operand : Word32) : Instr :=
  e.instr (e.idx.get idx) (e.operand.get operand)

/-- The row of spec/opcode_table.json. -/
def row (e : OpcodeEntry) : OpcodeRow where
  mask := 0xFF#8 ++ e.idx.mask ++ 0xFFFF#16 ++ e.operand.mask
  pattern := e.op ++ 0#8 ++ 0#16 ++ 0#32

/-- The word has the row's opcode, and every bit that must be zero is zero (R93). -/
structure Admits (e : OpcodeEntry) (w : Word) : Prop where
  op : opField w = e.op
  rsv : rsvField w = 0
  idx : e.idx.zero (idxField w) = true
  operand : e.operand.zero (operandField w) = true

end OpcodeEntry

/-! The opcode map is the decoder's, the encoder's and the table's. -/

theorem opcodeRows_eq_map : opcodeRows = opcodeMap.map OpcodeEntry.row := by decide

theorem nodup_opcodes : (opcodeMap.map OpcodeEntry.op).Nodup := by decide

/-- The decoder reads a row's fields when their must-be-zero bits are zero. -/
theorem decodeFields_of_mem {e : OpcodeEntry} (h : e ∈ opcodeMap) (idx : BitVec 8)
    (operand : Word32) :
    decodeFields e.op idx operand =
      onlyIf (e.idx.zero idx && e.operand.zero operand) (e.read idx operand) := by
  fin_cases h
  -- RAM_RD and WR_RBASE, where the operand field has no must-be-zero bit.
  on_goal 23 => exact congrArg (onlyIf · _) (Bool.and_true _).symm
  on_goal 20 => exact congrArg (onlyIf · _) (Bool.and_true _).symm
  all_goals rfl

theorem opcode_mem_of_decodeFields_eq_ok {op idx : BitVec 8} {operand : Word32} {i : Instr}
    (h : decodeFields op idx operand = .ok i) :
    op.toNat ∈ opcodeMap.map fun e => e.op.toNat := by
  unfold decodeFields at h
  split at h
  case h_39 => cases h
  all_goals
    rename_i hop
    rw [hop]
    decide

theorem encode_of_mem {e : OpcodeEntry} (h : e ∈ opcodeMap) (a : e.α) (b : e.β) :
    encode (e.instr a b) = mkWord e.op (e.idx.put a) (e.operand.put b) := by
  fin_cases h <;> rfl

theorem wf_of_mem {e : OpcodeEntry} (h : e ∈ opcodeMap) (a : e.α) (b : e.β) :
    (e.instr a b).wf = (e.operand.fits b && e.idx.fits a) := by
  fin_cases h
  -- RAM_RD and RAM_WR, whose address has a bound; then INIT, whose two fields both have one.
  on_goal 23 => exact (Bool.and_true _).symm
  on_goal 22 => exact (Bool.and_true _).symm
  on_goal 1 => exact Bool.and_comm _ _
  all_goals rfl

/-- What holds of the operations of every row holds of every operation. -/
theorem instr_of_opcodeMap {P : Instr → Prop} (h : ∀ e ∈ opcodeMap, ∀ a b, P (e.instr a b))
    (i : Instr) : P i := by
  have row (n : Fin 38) (a b) : P ((opcodeMap.get n).instr a b) :=
    h _ (List.get_mem opcodeMap n) a b
  cases i with
  | init nv size => exact row 0 nv size
  | destroy => exact row 1 () ()
  | step => exact row 2 () ()
  | kon n => exact row 3 n ()
  | koff n => exact row 4 n ()
  | setExtcb imm => exact row 5 () imm
  | wrVrate n imm => exact row 6 n imm
  | wrVvoll n imm => exact row 7 n imm
  | wrVvolr n imm => exact row 8 n imm
  | wrVadsr n imm => exact row 9 n imm
  | wrVstart n imm => exact row 10 n imm
  | wrVflags n imm => exact row 11 n imm
  | wrMvoll imm => exact row 12 () imm
  | wrMvolr imm => exact row 13 () imm
  | wrRvoll imm => exact row 14 () imm
  | wrRvolr imm => exact row 15 () imm
  | wrXvoll imm => exact row 16 () imm
  | wrXvolr imm => exact row 17 () imm
  | wrCtrl imm => exact row 18 () imm
  | wrRbase imm => exact row 19 () imm
  | wrRreg k imm => exact row 20 k imm
  | ramWr b addr => exact row 21 b addr
  | ramRd addr => exact row 22 () addr
  | rdVrate n => exact row 23 n ()
  | rdVvoll n => exact row 24 n ()
  | rdVvolr n => exact row 25 n ()
  | rdVadsr n => exact row 26 n ()
  | rdVstart n => exact row 27 n ()
  | rdVflags n => exact row 28 n ()
  | rdMvoll => exact row 29 () ()
  | rdMvolr => exact row 30 () ()
  | rdRvoll => exact row 31 () ()
  | rdRvolr => exact row 32 () ()
  | rdXvoll => exact row 33 () ()
  | rdXvolr => exact row 34 () ()
  | rdCtrl => exact row 35 () ()
  | rdRbase => exact row 36 () ()
  | rdRreg k => exact row 37 k ()

/-! Encoding and decoding by rows. -/

theorem onlyIf_eq_ok_iff {zero : Bool} {i j : Instr} :
    onlyIf zero i = .ok j ↔ zero = true ∧ i = j := by
  cases zero <;> simp [onlyIf]

/-- A word decodes exactly if a row admits it, and then to what that row reads. -/
theorem decode_eq_ok_iff {w : Word} {i : Instr} :
    decode w = .ok i ↔
      ∃ e ∈ opcodeMap, e.Admits w ∧ e.read (idxField w) (operandField w) = i := by
  constructor
  · intro h
    unfold decode at h
    split at h
    next hrsv =>
      obtain ⟨e, he, hop⟩ := List.mem_map.1 (opcode_mem_of_decodeFields_eq_ok h)
      have hop := (BitVec.eq_of_toNat_eq hop).symm
      rw [hop, decodeFields_of_mem he, onlyIf_eq_ok_iff, Bool.and_eq_true] at h
      obtain ⟨⟨hidx, hoperand⟩, hi⟩ := h
      exact ⟨e, he, ⟨hop, eq_of_beq hrsv, hidx, hoperand⟩, hi⟩
    next => cases h
  · rintro ⟨e, he, ⟨hop, hrsv, hidx, hoperand⟩, rfl⟩
    rw [decode, hrsv, hop, decodeFields_of_mem he, hidx, hoperand]
    rfl

/-- The word of an operation of a row is admitted by the row. -/
theorem OpcodeEntry.admits_mkWord (e : OpcodeEntry) (a : e.α) (b : e.β) :
    e.Admits (mkWord e.op (e.idx.put a) (e.operand.put b)) where
  op := opField_fields _ _ _
  rsv := rsvField_fields _ _ _
  idx := (congrArg e.idx.zero (idxField_fields _ _ _)).trans (e.idx.zero_put a)
  operand := (congrArg e.operand.zero (operandField_fields _ _ _)).trans (e.operand.zero_put b)

/-- The bits that a row's mask compares are the opcode, `rsv` and the must-be-zero bits. -/
theorem OpcodeEntry.row_selects_iff (e : OpcodeEntry) (w : Word) :
    e.row.Selects w ↔ e.Admits w := by
  have hop : opField w &&& 0xFF#8 = opField w := BitVec.and_allOnes
  have hrsv : rsvField w &&& 0xFFFF#16 = rsvField w := BitVec.and_allOnes
  rw [OpcodeRow.Selects, row, and_fields, hop, hrsv, append_eq_append_iff, append_eq_append_iff,
    append_eq_append_iff]
  constructor
  · rintro ⟨⟨⟨hop, hidx⟩, hrsv⟩, hoperand⟩
    exact ⟨hop, hrsv, (e.idx.zero_iff _).2 hidx, (e.operand.zero_iff _).2 hoperand⟩
  · rintro ⟨hop, hrsv, hidx, hoperand⟩
    exact ⟨⟨⟨hop, (e.idx.zero_iff _).1 hidx⟩, hrsv⟩, (e.operand.zero_iff _).1 hoperand⟩

theorem mem_opcodeRows_iff {r : OpcodeRow} : r ∈ opcodeRows ↔ ∃ e ∈ opcodeMap, e.row = r := by
  rw [opcodeRows_eq_map, List.mem_map]

/-- A word is legal exactly if a row of the opcode table selects it (R93). -/
theorem decodes_iff_row_selects (w : Word) :
    (∃ i, decode w = .ok i) ↔ ∃ r ∈ opcodeRows, r.Selects w := by
  constructor
  · rintro ⟨i, hi⟩
    obtain ⟨e, he, hadmits, -⟩ := decode_eq_ok_iff.1 hi
    exact ⟨e.row, mem_opcodeRows_iff.2 ⟨e, he, rfl⟩, (e.row_selects_iff w).2 hadmits⟩
  · rintro ⟨r, hr, hselects⟩
    obtain ⟨e, he, rfl⟩ := mem_opcodeRows_iff.1 hr
    exact ⟨_, decode_eq_ok_iff.2 ⟨e, he, (e.row_selects_iff w).1 hselects, rfl⟩⟩

/-- No word has two rows: their opcodes differ. -/
theorem row_unique {w : Word} {r r' : OpcodeRow} (hr : r ∈ opcodeRows) (hr' : r' ∈ opcodeRows)
    (h : r.Selects w) (h' : r'.Selects w) : r = r' := by
  obtain ⟨e, he, rfl⟩ := mem_opcodeRows_iff.1 hr
  obtain ⟨e', he', rfl⟩ := mem_opcodeRows_iff.1 hr'
  have hop : e.op = e'.op :=
    ((e.row_selects_iff w).1 h).op.symm.trans ((e'.row_selects_iff w).1 h').op
  rw [List.inj_on_of_nodup_map nodup_opcodes he he' hop]

/-- A word that no row selects is consumed and answered with IllegalCommand (R302). -/
theorem step_of_no_row {s : State} {w : Word} {rest : List Word} (hcmds : s.cmds = w :: rest)
    (hnone : ∀ r ∈ opcodeRows, ¬ r.Selects w) :
    step s = .next { s with cmds := rest, resp := some 0x0000000100000000 } := by
  cases hdec : decode w with
  | error e => exact stepOf_of_illegal hcmds hdec
  | ok i =>
    obtain ⟨r, hr, hselects⟩ := (decodes_iff_row_selects w).1 ⟨i, hdec⟩
    exact absurd hselects (hnone r hr)

/-- Settles O1: row by row, every field gives back what was put in it. -/
theorem decodeEncodeRoundTrip : Obligations.DecodeEncodeRoundTrip := by
  refine instr_of_opcodeMap fun e he a b hwf => ?_
  rw [Instr.WellFormed, wf_of_mem he, Bool.and_eq_true] at hwf
  obtain ⟨hb, ha⟩ := hwf
  rw [encode_of_mem he, decode_eq_ok_iff]
  refine ⟨e, he, e.admits_mkWord a b, ?_⟩
  rw [OpcodeEntry.read, mkWord, idxField_fields, operandField_fields, e.idx.get_put a ha,
    e.operand.get_put b hb]

/-- Settles O2: the row that admits the word puts back what it has read. -/
theorem encodeDecodeRoundTrip : Obligations.EncodeDecodeRoundTrip := by
  intro w i h
  obtain ⟨e, he, ⟨hop, hrsv, hidx, hoperand⟩, rfl⟩ := decode_eq_ok_iff.1 h
  constructor
  · rw [Instr.WellFormed, OpcodeEntry.read, wf_of_mem he, e.idx.fits_get, e.operand.fits_get]
    rfl
  · rw [OpcodeEntry.read, encode_of_mem he, e.idx.put_get _ hidx, e.operand.put_get _ hoperand,
      ← hop, mkWord_fields hrsv]

/-- Settles O3: the rows of the opcode map are those of the opcode table. -/
theorem legalWordsAreTableRows : Obligations.LegalWordsAreTableRows :=
  ⟨decodes_iff_row_selects, fun _ _ _ => row_unique, fun _ _ _ => step_of_no_row⟩

/-- Settles O4: each word is the command word of its operation. -/
theorem decodedWords : Obligations.DecodedWords :=
  ⟨decodeEncodeRoundTrip (.init 24 0x80000) rfl, decodeEncodeRoundTrip (.kon 23) rfl,
    decodeEncodeRoundTrip (.wrVrate 5 0xFFFF) rfl, decodeEncodeRoundTrip (.wrVflags 3 3) rfl,
    decodeEncodeRoundTrip (.wrMvoll 0x8000) rfl, decodeEncodeRoundTrip (.wrRreg 31 0xFFFF) rfl,
    decodeEncodeRoundTrip (.ramWr 0xFF 0xFFFFFFFF) rfl, decodeEncodeRoundTrip (.rdRreg 0) rfl⟩

end Sys2Proof
end

section
/-! PROOFS. Every command is answered (spec file 30, rule R89; spec file 60, rules R300 and R301):
each shape of operation ends in one well-formed response, and leaves the queue of commands alone. -/

namespace Sys2Proof.Machine

/-- The form of a response word (R89, R301): bits 63 to 40 zero, a status of 0 to 6, and value 0 where
the status is a fault. -/
structure ResponseForm (r : Word) : Prop where
  high : r.toNat / 2 ^ 40 = 0
  status : r.toNat / 2 ^ 32 % 256 ≤ 6
  value : r.toNat / 2 ^ 32 % 256 ≠ 0 → r.toNat % 2 ^ 32 = 0

theorem okWord_form (v : Word32) : ResponseForm (okWord v) := by
  have hv := v.isLt
  have hword : (okWord v).toNat = v.toNat :=
    (congrArg BitVec.toNat (zero_append (m := 32) v)).trans (BitVec.toNat_setWidth_of_le (by omega))
  constructor <;> omega

theorem faultWord_form (f : Fault) : ResponseForm (faultWord f) := by
  cases f <;> constructor <;> decide

/-- The answer is a next state with a well-formed response, in which these commands are pending. -/
def AnsweredWith (cmds : List Word) (a : Answer) : Prop :=
  ∃ t r, a = .next t ∧ t.cmds = cmds ∧ t.resp = some r ∧ ResponseForm r

theorem respond_answered (v : Word32) (s : State) : AnsweredWith s.cmds (respond v s) :=
  ⟨_, _, rfl, rfl, rfl, okWord_form v⟩

theorem raise_answered (f : Fault) (s : State) : AnsweredWith s.cmds (raise f s) :=
  ⟨_, _, rfl, rfl, rfl, faultWord_form f⟩

theorem ifLive_answered {s : State} {k : Answer} (h : AnsweredWith s.cmds k) :
    AnsweredWith s.cmds (ifLive s k) := by
  unfold ifLive
  split
  · exact h
  · exact raise_answered _ s

theorem withVoice_answered {s : State} (n : Nat) {k : Voice → Answer}
    (h : ∀ v, AnsweredWith s.cmds (k v)) : AnsweredWith s.cmds (withVoice n s k) := by
  refine ifLive_answered ?_
  cases s.voices[n]? with
  | none => exact raise_answered _ s
  | some v => exact h v

theorem withAddress_answered {s : State} (addr : Nat) {k : Answer} (h : AnsweredWith s.cmds k) :
    AnsweredWith s.cmds (withAddress addr s k) := by
  refine ifLive_answered ?_
  split
  · exact h
  · exact raise_answered _ s

theorem execInit_answered (nv size : Nat) (s : State) :
    AnsweredWith s.cmds (execInit nv size s) := by
  unfold execInit
  split
  · exact raise_answered _ s
  · split
    · exact respond_answered 0 (initState nv size s)
    · exact raise_answered _ s

theorem execStepWith_answered (cfg : Config) (s : State) :
    AnsweredWith s.cmds (execStepWith cfg s) := by
  cases hlive : s.live with
  | false => rw [execStepWith, ifLive_of_dead _ hlive]; exact raise_answered _ s
  | true => rw [execStepWith_of_live cfg hlive]; exact ⟨_, _, rfl, rfl, rfl, okWord_form _⟩

/-- No register write touches the queue of commands. -/
theorem GlobalWrite.cmds {i : Instr} {f : State → State} (hw : GlobalWrite i f) (s : State) :
    (f s).cmds = s.cmds := by
  cases hw with
  | _ => rfl

theorem Shape.answered {cfg : Config} {i : Instr} {run : State → Answer} (hshape : Shape cfg i run)
    (s : State) : AnsweredWith s.cmds (run s) := by
  cases hshape with
  | init nv size => exact execInit_answered nv size s
  | destroy => exact ifLive_answered (respond_answered 0 (withEngine State.reset s))
  | step => exact execStepWith_answered cfg s
  | ramWr b addr =>
    exact withAddress_answered addr
      (respond_answered 0 { s with ram := Memory.write s.ram addr b })
  | ramRd addr => exact withAddress_answered addr (respond_answered _ s)
  | voiceWrite hw =>
    exact withVoice_answered _ fun v => respond_answered 0 (setVoice _ _ s)
  | voiceRead n f => exact withVoice_answered n fun v => respond_answered (f v) s
  | globalWrite hw => exact ifLive_answered (hw.cmds s ▸ respond_answered 0 _)
  | globalRead hr => exact ifLive_answered (respond_answered _ s)

theorem exec_answered (i : Instr) (s : State) : AnsweredWith s.cmds (exec i s) :=
  execWith_default ▸ (execWith_shape defaultConfig i).answered s

/-- Settles O6: an illegal word is answered with a fault, a legal one by its operation's shape. -/
theorem everyCommandIsAnswered : Obligations.EveryCommandIsAnswered := by
  intro s w rest hcmds
  have hstep : AnsweredWith rest (step s) := by
    cases hdec : decode w with
    | error e => rw [step, stepOf_of_illegal hcmds hdec]; exact raise_answered _ _
    | ok i => rw [step, stepOf_of_legal hcmds hdec]; exact exec_answered i _
  obtain ⟨t, r, ht, hrest, hr, hform⟩ := hstep
  exact ⟨t, r, ht, hrest, hr, hform.high, hform.status, hform.value⟩

end Sys2Proof.Machine
end

section
/-! PROOFS. LOAD_BYTES (spec file 30, rule R113): a row of RAM writes. -/

namespace Sys2Proof.Machine

/-- RAM_WR inside RAM stores its byte (R270). -/
theorem exec_ramWr_of_lt (b : Byte) {s : State} {addr : Nat} (hlive : s.live = true)
    (haddr : addr < s.ramSize) :
    exec (.ramWr b addr) s
      = .next (answered (okWord 0) { s with ram := Memory.write s.ram addr b }) :=
  withAddress_of_lt _ hlive haddr

/-- Settles O24: by induction on the bytes; the writes after the first leave its byte alone. -/
theorem loadBytesStores : Obligations.LoadBytesStores := by
  intro s a bs hlive hfits
  induction bs generalizing s a with
  | nil => exact ⟨s, rfl, nofun, fun _ _ => rfl⟩
  | cons b bs ih =>
    have hlen : (b :: bs).length = bs.length + 1 := rfl
    have hfirst := exec_ramWr_of_lt b hlive (addr := a) (by omega)
    obtain ⟨t, hrun, hstored, hother⟩ :=
      ih (answered (okWord 0) { s with ram := Memory.write s.ram a b }) (a + 1) hlive
        (by dsimp only [answered]; omega)
    simp only [answered_ram] at hother
    refine ⟨t, (runOpsOf_cons_of_next hfirst).trans hrun, fun j hj => ?_, fun c hc => ?_⟩
    · cases j with
      | zero =>
        rw [Nat.add_zero, hother a (by omega), read_write_same]
        rfl
      | succ j =>
        rw [← Nat.succ_add_eq_add_succ]
        exact hstored j (Nat.lt_of_succ_lt_succ hj)
    · rw [hother c (by omega), read_write_other _ _ _ _ (by omega)]

end Sys2Proof.Machine
end

section
/-! PROOFS. The descriptor of the envelope (spec file 30, rule R100). -/

namespace Sys2Proof.Machine

/-- A field of `n` bits from bit `i` on, as a number. -/
theorem toNat_extract_eq {w : Nat} (d : BitVec w) (i n : Nat) :
    (d.extractLsb' i n).toNat = d.toNat / 2 ^ i % 2 ^ n := by
  rw [BitVec.extractLsb'_toNat, Nat.shiftRight_eq_div_pow]

/-- A bit, as a number. -/
theorem getLsbD_eq_decide {w : Nat} (d : BitVec w) (i : Nat) :
    d.getLsbD i = decide (d.toNat / 2 ^ i % 2 = 1) := by
  rw [BitVec.getLsbD, Nat.testBit_eq_decide_div_mod_eq]

/-- Flipping bits outside a field does not change the field. -/
theorem extract_xor_of_zero {w i n : Nat} (d m : BitVec w) (h : m.extractLsb' i n = 0) :
    (d ^^^ m).extractLsb' i n = d.extractLsb' i n := by
  rw [BitVec.extractLsb'_xor, h]
  exact BitVec.xor_zero

theorem getLsbD_xor_of_false {w i : Nat} (d m : BitVec w) (h : m.getLsbD i = false) :
    (d ^^^ m).getLsbD i = d.getLsbD i := by
  rw [BitVec.getLsbD_xor, h, Bool.xor_false]

/-- Bit 29 of the descriptor. -/
abbrev adsrUnusedBit : Word32 := 0x20000000

/-- No field of the descriptor holds bit 29, and the table of R160 reads the fields only. -/
theorem envRow_xor_unusedBit (p : Phase) (d : Word32) :
    envRow p (d ^^^ adsrUnusedBit) = envRow p d := by
  have field (i n : Nat) (h : adsrUnusedBit.extractLsb' i n = 0) :
      (d ^^^ adsrUnusedBit).extractLsb' i n = d.extractLsb' i n := extract_xor_of_zero d _ h
  have bit (i : Nat) (h : adsrUnusedBit.getLsbD i = false) :
      (d ^^^ adsrUnusedBit).getLsbD i = d.getLsbD i := getLsbD_xor_of_false d _ h
  cases p with
  | off => rfl
  | attack =>
    rw [envRow, adsrAMode, adsrAShift, adsrAStep, bit 15 rfl, field 10 5 rfl, field 8 2 rfl]
    rfl
  | decay =>
    rw [envRow, adsrDShift, field 4 4 rfl]
    rfl
  | sustain =>
    rw [envRow, adsrSDir, adsrSMode, adsrSShift, adsrSStep, bit 30 rfl, bit 31 rfl, field 24 5 rfl,
      field 22 2 rfl]
    rfl
  | release =>
    rw [envRow, adsrRMode, adsrRShift, bit 21 rfl, field 16 5 rfl]
    rfl

theorem decayTarget_xor_unusedBit (d : Word32) :
    decayTarget (d ^^^ adsrUnusedBit) = decayTarget d := by
  rw [decayTarget, adsrSLevel, extract_xor_of_zero d adsrUnusedBit rfl]
  rfl

/-- Settles O49: each field is a bit range, and none holds bit 29. -/
theorem adsrFields : Obligations.AdsrFields := fun d =>
  ⟨(toNat_extract_eq d 0 4).trans (by rw [pow_zero, Nat.div_one]; rfl), toNat_extract_eq d 4 4,
    toNat_extract_eq d 8 2, toNat_extract_eq d 10 5, getLsbD_eq_decide d 15,
    toNat_extract_eq d 16 5, getLsbD_eq_decide d 21, toNat_extract_eq d 22 2,
    toNat_extract_eq d 24 5, getLsbD_eq_decide d 30, getLsbD_eq_decide d 31,
    fun p => ⟨envRow_xor_unusedBit p d, decayTarget_xor_unusedBit d⟩⟩

end Sys2Proof.Machine
end

section
/-! PROOFS. The residuals of a block (spec file 30, rule R99). -/

namespace Sys2Proof.Machine

theorem blockShift_le (blk : Vector Byte 16) : blockShift blk ≤ 12 := Nat.min_le_right _ _

theorem residual_eq (blk : Vector Byte 16) (k : Fin 28) :
    residual blk k = (nibble blk k).toInt * 2 ^ (12 - blockShift blk) := rfl

theorem nibble_bounds (blk : Vector Byte 16) (k : Fin 28) :
    -8 ≤ (nibble blk k).toInt ∧ (nibble blk k).toInt ≤ 7 := by
  have hlo := BitVec.le_toInt (nibble blk k)
  have hhi := BitVec.toInt_lt (x := nibble blk k)
  omega

/-- Shifting left by what is missing to 12 is shifting right from the top (R126). -/
theorem mul_two_pow_sub {x : Int} {n k : Nat} (h : k ≤ n) :
    x * 2 ^ n / 2 ^ k = x * 2 ^ (n - k) := by
  rw [← Nat.sub_add_cancel h, pow_add, ← mul_assoc, Nat.add_sub_cancel]
  exact Int.mul_ediv_cancel _ (by positivity)

/-- Settles O58: a nibble has four bits, and the shift is at most 12. -/
theorem residualRange : Obligations.ResidualRange := by
  intro blk k
  obtain ⟨hlo, hhi⟩ := nibble_bounds blk k
  have hpos : (0 : Int) < 2 ^ (12 - blockShift blk) := by positivity
  have hpow : (2 : Int) ^ (12 - blockShift blk) ≤ 2 ^ 12 :=
    pow_le_pow_right₀ (by omega) (Nat.sub_le _ _)
  refine ⟨hlo, hhi, blockShift_le blk, rfl, ?_, ?_, ?_⟩
  · rw [residual_eq]; nlinarith
  · rw [residual_eq]; nlinarith
  · rw [BitVec.toInt_sshiftRight, BitVec.toInt_append_zero, Int.shiftRight_eq_div_pow, mul_comm,
      Nat.cast_pow]
    exact (mul_two_pow_sub (blockShift_le blk)).symm

end Sys2Proof.Machine
end

section
/-! PROOFS. The terminator of a sample (spec file 30, rule R114; spec file 41, rule R152): two silent
blocks, the first a loop start, the second a loop end with repeat. -/

namespace Sys2Proof.Machine

/-- Without prediction, residuals of zero decode to silence. -/
theorem decodeRun_silent (n : Nat) (old new : S16) :
    decodeRun (0, 0) (List.replicate n 0) old new = List.replicate n 0 := by
  induction n generalizing old new with
  | zero => rfl
  | succ n ih =>
    have hsample : sat16 (0 + predict (0, 0) old new) = 0 := by simp [predict, asr]
    rw [List.replicate_succ, decodeRun, hsample, ih, List.replicate_succ]

/-- A block whose header and residual bytes are zero. -/
structure SilentBlock (blk : Vector Byte 16) : Prop where
  header : blk[0] = 0
  residuals : ∀ (j : Nat) (h : j + 2 < 16), blk[j + 2] = 0

theorem SilentBlock.residual_eq_zero {blk : Vector Byte 16} (h : SilentBlock blk) (k : Fin 28) :
    residual blk k = 0 := by
  have hnibble : nibble blk k = 0 := by
    have hbyte := h.residuals (k.val / 2) (by omega)
    simp only [nibble, Nat.add_comm 2, hbyte]
    split <;> rfl
  rw [residual, hnibble]
  exact Int.zero_mul _

/-- A silent block decodes to 28 zeros, whatever came before. -/
theorem SilentBlock.decodeBlock_pcm {blk : Vector Byte 16} (h : SilentBlock blk) (old new : S16)
    (k : Fin 28) : (decodeBlock defaultConfig blk old new).pcm.get k = 0 := by
  have hfilter : blockFilter defaultConfig blk = (0, 0) := by rw [blockFilter, h.header]; rfl
  have hresiduals : List.ofFn (residual blk) = List.replicate 28 0 := by
    rw [funext h.residual_eq_zero, List.ofFn_const]
  have hpcm : (decodeBlock defaultConfig blk old new).pcm =
      Vector.ofFn fun k : Fin 28 => (List.replicate 28 0).getD k.val 0 := by
    rw [decodeBlock, hfilter, hresiduals, decodeRun_silent]
  rw [hpcm]
  exact (Vector.getElem_ofFn k.isLt).trans (List.getD_replicate 0 k.isLt)

/-- A fetch decodes the block at NEXT, goes on to the one after it, and acts on the flags (R152). -/
theorem fetchBlock_of_flags (cfg : Config) {ram : Memory} {blocks a : Nat} {flags : Byte}
    {v : Voice} (hnext : v.next % blocks = a) (hflags : (Memory.readBlock ram (16 * a))[1] = flags) :
    fetchBlock cfg ram blocks v =
      applyFlags a flags
        { v with
          hist := #v[v.pcm[24], v.pcm[25], v.pcm[26], v.pcm[27]]
          pcm := (decodeBlock cfg (Memory.readBlock ram (16 * a)) v.pcm[26] v.pcm[27]).pcm
          cur := a
          next := (a + 1) % blocks
          sidx := 0 } := by
  subst hnext hflags
  rfl

/-- A loop start without a loop end sets the loop point. -/
theorem applyFlags_of_start {flags : Byte} (hstart : loopStart flags = true)
    (hend : loopEnd flags = false) (a : Nat) (v : Voice) :
    applyFlags a flags v = { v with loop := a } := by
  simp [applyFlags, hstart, hend]

/-- A loop end with repeat goes on at the loop point. -/
theorem applyFlags_of_repeat {flags : Byte} (hstart : loopStart flags = false)
    (hend : loopEnd flags = true) (hrepeat : loopRepeat flags = true) (a : Nat) (v : Voice) :
    applyFlags a flags v = { v with next := v.loop } := by
  simp [applyFlags, hstart, hend, hrepeat]

/-- A voice that has fetched a block of the terminator at `a`: `cur` is its address, `next` that of
the other one; samples are zero, and phase and level are those of `v`. -/
structure InTerminator (v : Voice) (a cur next : Nat) (w : Voice) : Prop where
  silent : ∀ k : Fin 28, w.pcm.get k = 0
  loop : w.loop = a
  phase : w.phase = v.phase
  level : w.level = v.level
  cur : w.cur = cur
  next : w.next = next

/-- The bytes of RAM from `16 * a` on are a terminator block: header 0, these flags, no residual. -/
structure TerminatorBlock (ram : Memory) (a : Nat) (flags : Byte) : Prop where
  silent : SilentBlock (Memory.readBlock ram (16 * a))
  flags : (Memory.readBlock ram (16 * a))[1] = flags

section
variable {ram : Memory} {blocks a : Nat} {v w : Voice}

/-- The fetch of T0: the loop point is set, and T1 is next. -/
theorem fetchBlock_terminator0 (ha : a + 1 < blocks) (hblock : TerminatorBlock ram a 0x04)
    (hnext : w.next = a) (hphase : w.phase = v.phase) (hlevel : w.level = v.level) :
    InTerminator v a a (a + 1) (fetchBlock defaultConfig ram blocks w) := by
  have hmod : w.next % blocks = a := by rw [hnext, Nat.mod_eq_of_lt (by omega)]
  rw [fetchBlock_of_flags defaultConfig hmod hblock.flags, applyFlags_of_start rfl rfl]
  exact ⟨hblock.silent.decodeBlock_pcm _ _, rfl, hphase, hlevel, rfl, Nat.mod_eq_of_lt ha⟩

/-- The fetch of T1: the loop point is next. -/
theorem fetchBlock_terminator1 (ha : a + 1 < blocks) (hblock : TerminatorBlock ram (a + 1) 0x03)
    (h : InTerminator v a a (a + 1) w) :
    InTerminator v a (a + 1) a (fetchBlock defaultConfig ram blocks w) := by
  have hmod : w.next % blocks = a + 1 := by rw [h.next, Nat.mod_eq_of_lt ha]
  rw [fetchBlock_of_flags defaultConfig hmod hblock.flags, applyFlags_of_repeat rfl rfl rfl]
  exact ⟨hblock.silent.decodeBlock_pcm _ _, h.loop, h.phase, h.level, rfl, h.loop⟩

/-- After an odd number of fetches the voice is in T0, after an even one in T1. -/
theorem inTerminator_iterate (ha : a + 1 < blocks) (hfirst : TerminatorBlock ram a 0x04)
    (hsecond : TerminatorBlock ram (a + 1) 0x03) (hnext : v.next = a) {n : Nat} (hn : 1 ≤ n) :
    InTerminator v a (if n % 2 = 1 then a else a + 1) (if n % 2 = 1 then a + 1 else a)
      ((fetchBlock defaultConfig ram blocks)^[n] v) := by
  induction n, hn using Nat.le_induction with
  | base => exact fetchBlock_terminator0 ha hfirst hnext rfl rfl
  | succ n hn ih =>
    rw [Function.iterate_succ_apply']
    obtain heven | hodd := Nat.mod_two_eq_zero_or_one n
    · rw [if_neg (by omega), if_neg (by omega)] at ih
      rw [if_pos (by omega), if_pos (by omega)]
      exact fetchBlock_terminator0 ha hfirst ih.next ih.phase ih.level
    · rw [if_pos hodd, if_pos hodd] at ih
      rw [if_neg (by omega), if_neg (by omega)]
      exact fetchBlock_terminator1 ha hsecond ih

end

/-- A block that reads as a header 0, its flags and fourteen zeros is a terminator block. -/
theorem terminatorBlock_of_read {ram : Memory} {a : Nat} {flags : Byte} {bytes : List Byte}
    (hbytes : bytes = 0x00 :: flags :: List.replicate 14 0)
    (h : ∀ j (hj : j < 16), Memory.read ram (16 * a + j) = bytes[j]'(by simpa [hbytes])) :
    TerminatorBlock ram a flags := by
  subst hbytes
  refine ⟨⟨?_, fun j hj => ?_⟩, ?_⟩
  · rw [readBlock_getElem, h 0 (by omega)]; rfl
  · rw [readBlock_getElem, h (j + 2) hj]
    exact List.getElem_replicate (n := 14) (Nat.lt_of_add_lt_add_right hj)
  · rw [readBlock_getElem, h 1 (by omega)]; rfl

/-- Settles O59: by induction on the number of fetches, T0 and T1 in turn. -/
theorem terminatorLoops : Obligations.TerminatorLoops := by
  intro ram blocks a v ha hfirst hsecond hnext n hn
  obtain ⟨hsilent, hloop, hphase, hlevel, hcur, hnext'⟩ := inTerminator_iterate ha
    (terminatorBlock_of_read rfl hfirst) (terminatorBlock_of_read rfl hsecond) hnext hn
  exact ⟨hsilent, hloop, hphase, hlevel, hcur, hnext'⟩

end Sys2Proof.Machine
end

section
/-! PROOFS. The codec (spec file 40, rules R122 and R124): the block's fields as numbers, the recurrence of
the sample loop over the list of all samples, and the default filter table. -/

namespace Sys2Proof.Machine

/-! The fields of a block (R96, R98). -/

theorem toNat_lowNibble (b : Byte) : (b.extractLsb' 0 4).toNat = b.toNat % 16 := by
  rw [toNat_extract_eq, pow_zero, Nat.div_one]
  rfl

theorem toNat_highNibble (b : Byte) : (b.extractLsb' 4 4).toNat = b.toNat / 16 := by
  rw [toNat_extract_eq]
  exact Nat.mod_eq_of_lt (Nat.div_lt_of_lt_mul b.isLt)

theorem blockShift_eq (blk : Vector Byte 16) : blockShift blk = min (blk[0].toNat % 16) 12 := by
  rw [blockShift, headerShift, toNat_lowNibble, maxShift]

theorem blockFilter_eq (cfg : Config) (blk : Vector Byte 16) :
    blockFilter cfg blk = cfg.filterTable.getD (blk[0].toNat / 16) (0, 0) := by
  rw [blockFilter, headerFilter, toNat_highNibble]

/-- The low nibble comes first (R98). -/
theorem toNat_nibble (blk : Vector Byte 16) (k : Fin 28) :
    (nibble blk k).toNat =
      if k.val % 2 = 1 then (blk[2 + k.val / 2]'(by omega)).toNat / 16
      else (blk[2 + k.val / 2]'(by omega)).toNat % 16 := by
  rw [nibble]
  split
  · exact toNat_highNibble _
  · exact toNat_lowNibble _

/-- `sext_4` (R14). -/
theorem toInt_four_bits (n : BitVec 4) :
    n.toInt = if 8 ≤ n.toNat then (n.toNat : Int) - 16 else n.toNat := by
  rw [BitVec.toInt_eq_toNat_cond]
  split <;> split <;> omega

/-! The sample loop (R122). -/

theorem length_decodeRun (filter : Int × Int) (ts : List Int) (old new : S16) :
    (decodeRun filter ts old new).length = ts.length := by
  induction ts generalizing old new with
  | nil => rfl
  | cons t ts ih => rw [decodeRun, List.length_cons, ih, List.length_cons]

/-- The incoming history and the samples form one sequence, in which each sample is made from the two
before it. -/
theorem decodeRun_getD (filter : Int × Int) (ts : List Int) (old new : S16) (k : Nat)
    (hk : k < ts.length) :
    (decodeRun filter ts old new).getD k 0 =
      sat16 (ts[k] + predict filter
        ((old :: new :: decodeRun filter ts old new).getD k 0)
        ((old :: new :: decodeRun filter ts old new).getD (k + 1) 0)) := by
  induction ts generalizing old new k with
  | nil => exact absurd hk (Nat.not_lt_zero k)
  | cons t ts ih =>
    cases k with
    | zero => rfl
    | succ k =>
      exact ih new (sat16 (t + predict filter old new)) k (Nat.lt_of_succ_lt_succ hk)

/-- The block's samples are those of the loop. -/
theorem toList_decodeBlock_pcm (cfg : Config) (blk : Vector Byte 16) (old new : S16) :
    (decodeBlock cfg blk old new).pcm.toList =
      decodeRun (blockFilter cfg blk) (List.ofFn (residual blk)) old new := by
  have hlen : (decodeRun (blockFilter cfg blk) (List.ofFn (residual blk)) old new).length = 28 := by
    rw [length_decodeRun, List.length_ofFn]
  apply List.ext_getElem
  · rw [hlen, Vector.length_toList]
  · intro k hk hk'
    rw [Vector.getElem_toList, ← List.getD_eq_getElem _ 0 hk']
    exact Vector.getElem_ofFn _

/-- The incoming history followed by the block's samples: what R122 predicts from. -/
def samplesWithHistory (cfg : Config) (blk : Vector Byte 16) (old new : S16) : List S16 :=
  old :: new :: (decodeBlock cfg blk old new).pcm.toList

theorem samplesWithHistory_getD (cfg : Config) (blk : Vector Byte 16) (old new : S16) (n : Nat) :
    (samplesWithHistory cfg blk old new).getD n 0 =
      if n = 0 then old else if n = 1 then new
      else (decodeBlock cfg blk old new).pcm.toList.getD (n - 2) 0 := by
  match n with
  | 0 => rfl
  | 1 => rfl
  | n + 2 =>
    rw [if_neg (by omega), if_neg (by omega), Nat.add_sub_cancel, samplesWithHistory,
      List.getD_cons_succ, List.getD_cons_succ]

/-- Each sample is the saturated sum of its residual and its prediction (R122). -/
theorem decodeBlock_pcm_get (cfg : Config) (blk : Vector Byte 16) (old new : S16) (k : Fin 28) :
    (decodeBlock cfg blk old new).pcm.get k =
      sat16 (residual blk k + predict (blockFilter cfg blk)
        ((samplesWithHistory cfg blk old new).getD k.val 0)
        ((samplesWithHistory cfg blk old new).getD (k.val + 1) 0)) := by
  have hk : k.val < (List.ofFn (residual blk)).length := by rw [List.length_ofFn]; exact k.isLt
  have hsample : (decodeBlock cfg blk old new).pcm.get k =
      (decodeRun (blockFilter cfg blk) (List.ofFn (residual blk)) old new).getD k.val 0 :=
    Vector.getElem_ofFn k.isLt
  rw [hsample, decodeRun_getD _ _ _ _ _ hk, List.getElem_ofFn, samplesWithHistory,
    toList_decodeBlock_pcm]

/-! The default instance (R124). -/

theorem defaultConfig_filterTable_getD (n : Nat) :
    defaultConfig.filterTable.getD n (0, 0) =
      (if n = 1 then 60 else if n = 2 then 115 else if n = 3 then 98 else 0,
        if n = 2 then -52 else if n = 3 then -55 else 0) := by
  match n with
  | 0 => rfl
  | 1 => rfl
  | 2 => rfl
  | 3 => rfl
  | n + 4 => rfl

/-- Settles O57: the loop's recurrence, read in the numbers of the block's fields. -/
theorem adpcmRecurrence : Obligations.AdpcmRecurrence := by
  refine ⟨defaultConfig_filterTable_getD, rfl, fun cfg blk old new => ⟨fun k => ?_, rfl, rfl⟩⟩
  rw [decodeBlock_pcm_get, toInt_sat16, residual_eq, toInt_four_bits, toNat_nibble, blockShift_eq,
    predict, blockFilter_eq, samplesWithHistory_getD, samplesWithHistory_getD]
  rfl

end Sys2Proof.Machine
end

section
/-! PROOFS. The ADSR envelope (spec file 41, rules R160 to R168): the level after one change, rising or
falling, then one change in each phase, the wait between changes, and the trace of the fastest envelope. -/

namespace Sys2Proof.Machine

/-! One change of the level (R161 to R164). -/

/-- The level after one change of it. -/
def changedLevel (row : EnvRow) (level : Nat) : Nat :=
  (clamp (level + envStep row level) 0 levelMax).toNat

/-- A row that rises by `n`, scaled by the shift, stops at the largest level. -/
theorem changedLevel_rise (exponential : Bool) (shift n level : Nat) :
    changedLevel ⟨false, exponential, shift, n⟩ level
      = min 0x7FFF (level + n * 2 ^ (11 - shift)) := by
  have hstep : envStep ⟨false, exponential, shift, n⟩ level = ((n * 2 ^ (11 - shift) : Nat) : Int) := by
    simp [envStep, shl]
  rw [changedLevel, hstep, clamp, levelMax]
  omega

/-- A step in proportion to the level, rounded to the floor, is a fall rounded up (R163). -/
theorem asr_neg_mul_eq_expFall (fall level : Nat) :
    asr (-(fall : Int) * level) 15 = -(expFall fall level : Int) := by
  rw [asr, expFall, Int.neg_mul, ← Int.natCast_mul]
  omega

/-- A row that falls by `n`, scaled by the shift and, in exponential mode, by the level, stops at 0. -/
theorem changedLevel_fall (exponential : Bool) (shift n level : Nat) :
    changedLevel ⟨true, exponential, shift, -(n : Int)⟩ level
      = min 0x7FFF (level -
          if exponential = true then expFall (n * 2 ^ (11 - shift)) level
          else n * 2 ^ (11 - shift)) := by
  have hscaled : shl (-(n : Int)) (11 - shift) = -((n * 2 ^ (11 - shift) : Nat) : Int) := by
    simp [shl]
  cases exponential with
  | false =>
    have hstep : envStep ⟨true, false, shift, -(n : Int)⟩ level = shl (-(n : Int)) (11 - shift) := rfl
    rw [changedLevel, hstep, hscaled, clamp, levelMax, if_neg Bool.false_ne_true]
    omega
  | true =>
    have hstep : envStep ⟨true, true, shift, -(n : Int)⟩ level
        = asr (shl (-(n : Int)) (11 - shift) * level) 15 := rfl
    rw [changedLevel, hstep, hscaled, asr_neg_mul_eq_expFall, clamp, levelMax, if_pos rfl]
    omega

/-- The wait after a rise is four times longer above the threshold in exponential mode (R163). -/
theorem envCycles_rise (exponential : Bool) (shift level : Nat) (step : Int) :
    envCycles ⟨false, exponential, shift, step⟩ level
      = 2 ^ (shift - 11) * if exponential = true ∧ 0x6000 < level then 4 else 1 := by
  simp only [envCycles, expThreshold, Bool.false_eq_true, not_false_eq_true, true_and]
  split
  · rfl
  · exact (Nat.mul_one _).symm

/-- The wait after a fall does not depend on the level (R162). -/
theorem envCycles_fall (exponential : Bool) (shift level : Nat) (step : Int) :
    envCycles ⟨true, exponential, shift, step⟩ level = 2 ^ (shift - 11) := by
  simp [envCycles]

/-! The table of R160, each step as a rise or a fall by a natural number. -/

theorem adsrAStep_le (d : Word32) : adsrAStep d ≤ 3 := Nat.le_of_lt_succ (d.extractLsb' 8 2).isLt

theorem adsrSStep_le (d : Word32) : adsrSStep d ≤ 3 := Nat.le_of_lt_succ (d.extractLsb' 22 2).isLt

theorem envRow_attack (d : Word32) :
    envRow .attack d
      = some ⟨false, adsrAMode d, adsrAShift d, ((7 - adsrAStep d : Nat) : Int)⟩ := by
  have := adsrAStep_le d
  rw [envRow, Nat.cast_sub (by omega)]
  rfl

theorem envRow_decay (d : Word32) :
    envRow .decay d = some ⟨true, true, adsrDShift d, -((8 : Nat) : Int)⟩ := rfl

theorem envRow_sustain_down {d : Word32} (h : adsrSDir d = true) :
    envRow .sustain d
      = some ⟨true, adsrSMode d, adsrSShift d, -((8 - adsrSStep d : Nat) : Int)⟩ := by
  have := adsrSStep_le d
  rw [envRow, h, if_pos rfl, Nat.cast_sub (by omega), Int.neg_sub, Int.sub_eq_add_neg, Int.add_comm]
  rfl

theorem envRow_sustain_up {d : Word32} (h : adsrSDir d = false) :
    envRow .sustain d
      = some ⟨false, adsrSMode d, adsrSShift d, ((7 - adsrSStep d : Nat) : Int)⟩ := by
  have := adsrSStep_le d
  rw [envRow, h, if_neg Bool.false_ne_true, Nat.cast_sub (by omega)]
  rfl

theorem envRow_release (d : Word32) :
    envRow .release d = some ⟨true, adsrRMode d, adsrRShift d, -((8 : Nat) : Int)⟩ := rfl

/-- Every phase but Off has a row. -/
theorem envRow_of_not_off {p : Phase} (h : p ≠ .off) (d : Word32) :
    ∃ row, envRow p d = some row := by
  cases p with
  | off => exact absurd rfl h
  | attack | decay | sustain | release => exact ⟨_, rfl⟩

/-! One tick (R161, R165, R166). -/

theorem envTick_of_off {v : Voice} (h : v.phase = .off) : envTick v = v := by
  rw [envTick, h, envRow]

/-- A tick that still waits only counts down. -/
theorem envTick_of_wait {v : Voice} (hrun : v.phase ≠ .off) (hwait : 1 < v.envWait) :
    envTick v = { v with envWait := v.envWait - 1 } := by
  obtain ⟨row, hrow⟩ := envRow_of_not_off hrun v.adsr
  simp only [envTick, hrow, if_pos hwait]

/-- A tick that waits no longer changes the level. -/
theorem envTick_of_due {v : Voice} {row : EnvRow} (hrow : envRow v.phase v.adsr = some row)
    (hwait : v.envWait ≤ 1) : envTick v = envChange row v := by
  simp only [envTick, hrow, if_neg (Nat.not_lt.2 hwait)]

section
variable {v : Voice} (row : EnvRow)

theorem envChange_of_attack (h : v.phase = .attack) :
    envChange row v =
      if levelMax ≤ changedLevel row v.level then
        { v with level := changedLevel row v.level, phase := .decay, envWait := 0 }
      else
        { v with level := changedLevel row v.level, envWait := envCycles row v.level } := by
  simp [envChange, changedLevel, h]

theorem envChange_of_decay (h : v.phase = .decay) :
    envChange row v =
      if changedLevel row v.level ≤ decayTarget v.adsr then
        { v with level := changedLevel row v.level, phase := .sustain, envWait := 0 }
      else
        { v with level := changedLevel row v.level, envWait := envCycles row v.level } := by
  simp [envChange, changedLevel, h]

/-- Sustain never ends by itself. -/
theorem envChange_of_sustain (h : v.phase = .sustain) :
    envChange row v =
      { v with level := changedLevel row v.level, envWait := envCycles row v.level } := by
  simp [envChange, changedLevel, h]

theorem envChange_of_release (h : v.phase = .release) :
    envChange row v =
      if changedLevel row v.level = 0 then
        { v with level := 0, phase := .off, envWait := 0 }
      else
        { v with level := changedLevel row v.level, envWait := envCycles row v.level } := by
  by_cases hzero : changedLevel row v.level = 0
  · rw [if_pos hzero]
    rw [changedLevel] at hzero
    simp [envChange, h, hzero]
  · rw [if_neg hzero]
    rw [changedLevel] at hzero
    simp only [envChange, changedLevel, h, hzero]
    rfl

end

/-- Settles O50: the row of Attack rises. -/
theorem attackTick : Obligations.AttackTick := by
  intro v hphase hwait
  dsimp only
  have hrow := envRow_attack v.adsr
  rw [← hphase] at hrow
  rw [envTick_of_due hrow hwait, envChange_of_attack _ hphase, changedLevel_rise, envCycles_rise]
  exact if_congr (by rw [levelMax]; omega) rfl rfl

/-- Settles O51: the row of Decay falls in proportion to the level. -/
theorem decayTick : Obligations.DecayTick := by
  intro v hphase hwait hlevel
  dsimp only
  have hrow := envRow_decay v.adsr
  rw [← hphase] at hrow
  rw [envTick_of_due hrow hwait, envChange_of_decay _ hphase, changedLevel_fall, envCycles_fall,
    if_pos rfl, Nat.min_eq_right (by omega), decayTarget]

/-- Settles O52: by the direction bit the row of Sustain falls or rises. -/
theorem sustainTick : Obligations.SustainTick := by
  intro v hphase hwait hlevel
  dsimp only
  cases hdir : adsrSDir v.adsr with
  | true =>
    have hrow := envRow_sustain_down hdir
    rw [← hphase] at hrow
    rw [envTick_of_due hrow hwait, envChange_of_sustain _ hphase, changedLevel_fall, envCycles_fall,
      Nat.min_eq_right (by omega), if_pos rfl]
  | false =>
    have hrow := envRow_sustain_up hdir
    rw [← hphase] at hrow
    rw [envTick_of_due hrow hwait, envChange_of_sustain _ hphase, changedLevel_rise, envCycles_rise,
      if_neg Bool.false_ne_true, mul_ite, Nat.mul_one]

/-- The ticks from one change of a release to the next (R162). -/
def releaseCycles (d : Word32) : Nat := 2 ^ (adsrRShift d - 11)

/-- The fall of the level in one change of a release (R162, R163). -/
def releaseFall (d : Word32) (level : Nat) : Nat :=
  if adsrRMode d = true then expFall (8 * 2 ^ (11 - adsrRShift d)) level
  else 8 * 2 ^ (11 - adsrRShift d)

/-- One change of the level in Release, from any level. -/
theorem envTick_of_release {v : Voice} (hphase : v.phase = .release) (hwait : v.envWait ≤ 1) :
    let level := min 0x7FFF (v.level - releaseFall v.adsr v.level)
    envTick v =
      if level = 0 then { v with level := 0, phase := .off, envWait := 0 }
      else { v with level := level, envWait := releaseCycles v.adsr } := by
  have hrow := envRow_release v.adsr
  rw [← hphase] at hrow
  rw [envTick_of_due hrow hwait, envChange_of_release _ hphase, changedLevel_fall, envCycles_fall]
  rfl

/-- Settles O53: a level in range stays below the largest one as it falls. -/
theorem releaseTick : Obligations.ReleaseTick := by
  intro v hphase hwait hlevel
  have htick := envTick_of_release hphase hwait
  dsimp only at htick
  rwa [Nat.min_eq_right (by omega)] at htick

/-- Settles O54: by induction on the ticks; a change overwrites the wait before it. -/
theorem envelopeWait : Obligations.EnvelopeWait := by
  intro v hrun
  refine ⟨fun n hn => ?_, ?_⟩
  · induction n with
    | zero => rfl
    | succ n ih =>
      rw [Function.iterate_succ_apply', ih (by omega),
        envTick_of_wait (v := { v with envWait := v.envWait - n }) hrun (by dsimp only; omega)]
      rfl
  · obtain ⟨row, hrow⟩ := envRow_of_not_off hrun v.adsr
    calc envTick { v with envWait := 1 }
      _ = envChange row v := envTick_of_due (v := { v with envWait := 1 }) hrow (Nat.le_refl 1)
      _ = envTick { v with envWait := 0 } :=
        (envTick_of_due (v := { v with envWait := 0 }) hrow (Nat.zero_le 1)).symm

/-! The trace of the fastest envelope (R168). -/

/-- Two voices with the same envelope and descriptor. -/
structure SameEnvelope (v w : Voice) : Prop where
  adsr : v.adsr = w.adsr
  phase : v.phase = w.phase
  level : v.level = w.level
  envWait : v.envWait = w.envWait

theorem SameEnvelope.envChange {v w : Voice} (h : SameEnvelope v w) (row : EnvRow) :
    SameEnvelope (envChange row v) (envChange row w) := by
  simp only [Machine.envChange, h.adsr, h.phase, h.level]
  split
  · exact ⟨rfl, rfl, rfl, rfl⟩
  · split
    · exact ⟨rfl, rfl, rfl, rfl⟩
    · split <;> exact ⟨rfl, rfl, rfl, rfl⟩

/-- What a tick makes of the envelope depends on the envelope only. -/
theorem SameEnvelope.envTick {v w : Voice} (h : SameEnvelope v w) :
    SameEnvelope (envTick v) (envTick w) := by
  by_cases hoff : w.phase = .off
  · rwa [envTick_of_off hoff, envTick_of_off (h.phase.trans hoff)]
  by_cases hwait : 1 < w.envWait
  · rw [envTick_of_wait hoff hwait, envTick_of_wait (h.phase ▸ hoff) (h.envWait ▸ hwait)]
    exact ⟨h.adsr, h.phase, h.level, congrArg (· - 1) h.envWait⟩
  · obtain ⟨row, hrow⟩ := envRow_of_not_off hoff w.adsr
    have hrow' : envRow v.phase v.adsr = some row := by rw [h.phase, h.adsr, hrow]
    rw [envTick_of_due hrow (Nat.not_lt.1 hwait),
      envTick_of_due hrow' (h.envWait ▸ Nat.not_lt.1 hwait)]
    exact h.envChange row

theorem SameEnvelope.iterate_envTick {v w : Voice} (h : SameEnvelope v w) (n : Nat) :
    SameEnvelope (Machine.envTick^[n] v) (Machine.envTick^[n] w) := by
  induction n with
  | zero => exact h
  | succ n ih =>
    rw [Function.iterate_succ_apply', Function.iterate_succ_apply']
    exact ih.envTick

/-- Settles O55: the trace depends on the envelope only, and that of ADSR 0 is computed. -/
theorem fastestEnvelope : Obligations.FastestEnvelope := by
  intro v hadsr
  have hstart : SameEnvelope (keyOn v) (keyOn Voice.reset) := ⟨hadsr, rfl, rfl, rfl⟩
  simp only [(hstart.iterate_envTick _).phase, (hstart.iterate_envTick _).level]
  decide

end Sys2Proof.Machine
end

section
/-! PROOFS. Key on and key off (spec file 41, rules R141 and R142): an operation on one voice changes that
voice and the response only. -/

namespace Sys2Proof.Machine

/-- An operation that changes one voice checks the engine and then the index (R229). -/
theorem faultsVoice_of_changeVoice {i : Nat → Instr} {f : Voice → Voice}
    (h : ∀ n s, exec (i n) s = changeVoice n f s) : FaultsVoice i := fun s n =>
  ⟨fun hdead => (h n s).trans (withVoice_of_dead _ hdead),
    fun hlive hn => (h n s).trans (withVoice_of_no_voice _ hlive hn)⟩

theorem exec_kon_of_voice {s : State} {n : Nat} {v : Voice} (hlive : s.live = true)
    (hv : s.voices[n]? = some v) :
    exec (.kon n) s = .next (answered (okWord 0) (setVoice n (keyOn v) s)) :=
  changeVoice_of_voice keyOn hlive hv

theorem exec_koff_of_voice {s : State} {n : Nat} {v : Voice} (hlive : s.live = true)
    (hv : s.voices[n]? = some v) :
    exec (.koff n) s = .next (answered (okWord 0) (setVoice n (keyOff v) s)) :=
  changeVoice_of_voice keyOff hlive hv

theorem setVoice_getElem? {s : State} {n : Nat} {v : Voice} (w : Voice)
    (hv : s.voices[n]? = some v) : (setVoice n w s).voices[n]? = some w := by
  obtain ⟨hn, -⟩ := List.getElem?_eq_some_iff.1 hv
  exact List.getElem?_set_self hn

/-- To put a voice back where it stands changes nothing. -/
theorem setVoice_of_getElem? {s : State} {n : Nat} {v : Voice} (hv : s.voices[n]? = some v) :
    setVoice n v s = s := by
  obtain ⟨hn, rfl⟩ := List.getElem?_eq_some_iff.1 hv
  rw [setVoice, List.set_getElem_self]

/-- KON twice in a row equals KON once (R141). -/
theorem keyOn_keyOn (v : Voice) : keyOn (keyOn v) = keyOn v := rfl

/-- A second KON finds the voice, and the response, as the first one left them. -/
theorem exec_kon_again {s : State} {n : Nat} {v : Voice} (hlive : s.live = true)
    (hv : s.voices[n]? = some v) :
    let t := answered (okWord 0) (setVoice n (keyOn v) s)
    exec (.kon n) t = .next t := by
  have hkeyed := setVoice_getElem? (keyOn v) hv
  dsimp only
  rw [exec_kon_of_voice (s := answered (okWord 0) (setVoice n (keyOn v) s)) hlive hkeyed, keyOn_keyOn,
    setVoice_of_getElem? (s := answered (okWord 0) (setVoice n (keyOn v) s)) hkeyed]
  rfl

/-- Settles O14: the fields of the keyed voice as `keyOn` holds them. -/
theorem konResult : Obligations.KonResult := by
  refine ⟨fun idx => decode_fields 0x04 idx 0, faultsVoice_of_changeVoice fun _ _ => rfl,
    fun s n v hlive hv => ?_⟩
  exact ⟨keyOn v, _, exec_kon_of_voice hlive hv, rfl, keyOn_phase v, keyOn_level v, keyOn_envWait v,
    keyOn_cur v, keyOn_next v, keyOn_loop v, keyOn_sidx v, keyOn_frac v, vector_get_replicate 0,
    vector_get_replicate 0, keyOn_rate v, keyOn_volL v, keyOn_volR v, keyOn_adsr v, keyOn_start v,
    keyOn_disabled v, keyOn_rsend v, exec_kon_again hlive hv⟩

/-- Settles O15: the two cases of `keyOff`. -/
theorem koffResult : Obligations.KoffResult := by
  refine ⟨fun idx => decode_fields 0x05 idx 0, faultsVoice_of_changeVoice fun _ _ => rfl,
    fun s n v hlive hv => ⟨fun hoff => ?_, fun hrun => ?_⟩⟩
  · rw [exec_koff_of_voice hlive hv, keyOff_of_off hoff, setVoice_of_getElem? hv]
    rfl
  · rw [exec_koff_of_voice hlive hv, keyOff_of_not_off hrun]
    rfl

end Sys2Proof.Machine
end

section
/-! PROOFS. The playback position of a voice (spec file 41, rules R148 to R152): the phase advance, the walk
over the sample boundaries, and the block fetch by its flags. -/

namespace Sys2Proof.Machine

/-! The block fetch (R152). -/

/-- What the three flags of a block do, field by field. -/
theorem applyFlags_eq (a : Nat) (flags : Byte) (v : Voice) :
    let loop := if loopStart flags = true then a else v.loop
    let stops := loopEnd flags = true ∧ ¬ loopRepeat flags = true
    applyFlags a flags v =
      { v with
        loop := loop
        next := if loopEnd flags = true then loop else v.next
        level := if stops then 0 else v.level
        phase := if stops then .off else v.phase
        envWait := if stops then 0 else v.envWait } := by
  unfold applyFlags
  cases loopEnd flags with
  | false => cases loopStart flags <;> rfl
  | true =>
    cases loopRepeat flags with
    | false => cases loopStart flags <;> rfl
    | true => cases loopStart flags <;> rfl

theorem loopEnd_iff (flags : Byte) : loopEnd flags = true ↔ flags.toNat % 2 = 1 := by
  rw [loopEnd, getLsbD_eq_decide, decide_eq_true_iff, pow_zero, Nat.div_one]

theorem loopRepeat_iff (flags : Byte) : loopRepeat flags = true ↔ flags.toNat / 2 % 2 = 1 := by
  rw [loopRepeat, getLsbD_eq_decide, decide_eq_true_iff, pow_one]

theorem loopStart_iff (flags : Byte) : loopStart flags = true ↔ flags.toNat / 4 % 2 = 1 := by
  exact (congrArg (· = true) (getLsbD_eq_decide flags 2)).to_iff.trans decide_eq_true_iff

/-- Settles O44: the flags are the three low bits of the second byte of the block. -/
theorem blockFetchResult : Obligations.BlockFetchResult := by
  intro cfg ram blocks v
  have hflags : (Memory.readBlock ram (16 * (v.next % blocks)))[1]
      = Memory.read ram (16 * (v.next % blocks) + 1) := readBlock_getElem _ _ _ _
  rw [fetchBlock_of_flags cfg rfl hflags, applyFlags_eq]
  simp only [loopEnd_iff, loopRepeat_iff, loopStart_iff]
  rfl

/-! The walk over the boundaries (R151). -/

theorem crossBoundaries_of_off (cfg : Config) (ram : Memory) (blocks n : Nat) {v : Voice}
    (h : v.phase = .off) : crossBoundaries cfg ram blocks n v = v := by
  cases n with
  | zero => rfl
  | succ n => rw [crossBoundaries, if_pos h]

theorem crossBoundaries_succ_of_running (cfg : Config) (ram : Memory) (blocks n : Nat) {v : Voice}
    (h : v.phase ≠ .off) :
    crossBoundaries cfg ram blocks (n + 1) v
      = crossBoundaries cfg ram blocks n (crossBoundary cfg ram blocks v) := by
  rw [crossBoundaries, if_neg h]

/-- Inside a block a running voice consumes one sample at each boundary. -/
theorem crossBoundaries_inside (cfg : Config) (ram : Memory) (blocks : Nat) {n sidx : Nat} {v : Voice}
    (hrun : v.phase ≠ .off) (h : v.sidx + n = sidx) (hle : sidx ≤ 28) :
    crossBoundaries cfg ram blocks n v = { v with sidx := sidx } := by
  induction n generalizing v with
  | zero => rw [← h]; rfl
  | succ n ih =>
    have hnext : v.sidx + 1 + n = sidx := by omega
    rw [crossBoundaries_succ_of_running cfg ram blocks n hrun,
      crossBoundary_inside cfg ram blocks hrun (by omega)]
    exact ih (v := { v with sidx := v.sidx + 1 }) hrun hnext

/-- At the end of a block the fetch comes first, and a sample of the new block is consumed unless the fetch
stopped the voice. -/
theorem crossBoundary_at_end (cfg : Config) (ram : Memory) (blocks : Nat) {v : Voice}
    (hend : v.sidx = 28) :
    let w := fetchBlock cfg ram blocks v
    crossBoundary cfg ram blocks v = if w.phase = .off then w else { w with sidx := 1 } := by
  simp only [crossBoundary, if_pos hend, (fetchBlock_position cfg ram blocks v).1]

/-- A walk past the end of the block fetches once. -/
theorem crossBoundaries_past_end (cfg : Config) (ram : Memory) (blocks : Nat) {n sidx : Nat} {v : Voice}
    (hrun : v.phase ≠ .off) (hle : v.sidx ≤ 28) (hn : n ≤ 28) (h : v.sidx + n = 28 + sidx)
    (hpos : 0 < sidx) :
    let w := fetchBlock cfg ram blocks v
    crossBoundaries cfg ram blocks n v = if w.phase = .off then w else { w with sidx := sidx } := by
  induction n generalizing v with
  | zero => omega
  | succ n ih =>
    dsimp only
    rw [crossBoundaries_succ_of_running cfg ram blocks n hrun]
    by_cases hend : v.sidx = 28
    · rw [crossBoundary_at_end cfg ram blocks hend]
      by_cases hstop : (fetchBlock cfg ram blocks v).phase = .off
      · rw [if_pos hstop, if_pos hstop, crossBoundaries_of_off cfg ram blocks n hstop]
      · have hnew : 1 + n = sidx := by omega
        rw [if_neg hstop, if_neg hstop]
        exact crossBoundaries_inside (v := { fetchBlock cfg ram blocks v with sidx := 1 }) cfg ram blocks
          hstop hnew (by omega)
    · have hlt : v.sidx < 28 := Nat.lt_of_le_of_ne hle hend
      have hnext : v.sidx + 1 + n = 28 + sidx := by omega
      rw [crossBoundary_inside cfg ram blocks hrun hlt]
      exact ih (v := { v with sidx := v.sidx + 1 }) hrun hlt (by omega) hnext

/-- Settles O43: the walk ends inside the block, or goes past its end. -/
theorem sampleBoundaries : Obligations.SampleBoundaries :=
  fun cfg ram blocks _ _ hrun hsidx hn =>
    ⟨crossBoundaries_inside cfg ram blocks hrun rfl,
      fun hpast => crossBoundaries_past_end cfg ram blocks hrun hsidx hn (by omega) (by omega)⟩

/-! The phase advance (R150). -/

theorem advancePhase_eq (v : Voice) :
    let acc := v.frac + min v.rate.toNat 0x4000
    advancePhase v = ({ v with frac := acc % 4096 }, acc / 4096) := rfl

/-- At native rate one boundary is crossed, and the fraction stays. -/
theorem advancePhase_of_native_rate {v : Voice} (hfrac : v.frac ≤ 0xFFF) (hrate : v.rate = 0x1000) :
    advancePhase v = (v, 1) := by
  have hacc : v.frac + min v.rate.toNat 0x4000 = v.frac + 4096 := by rw [hrate]; rfl
  rw [advancePhase_eq, hacc]
  exact Prod.ext (congrArg (fun frac => { v with frac := frac }) (by omega)) (by dsimp only; omega)

/-- At rate zero no boundary is crossed, and nothing changes (R156). -/
theorem advancePhase_of_rate_zero {v : Voice} (hfrac : v.frac ≤ 0xFFF) (hrate : v.rate = 0) :
    advancePhase v = (v, 0) := by
  have hacc : v.frac + min v.rate.toNat 0x4000 = v.frac := by rw [hrate]; rfl
  rw [advancePhase_eq, hacc]
  exact Prod.ext (congrArg (fun frac => { v with frac := frac }) (by omega)) (by dsimp only; omega)

/-! The rate is read by the phase advance only. -/

theorem fetchBlock_withRate (cfg : Config) (ram : Memory) (blocks : Nat) (v : Voice) (rate : U16) :
    fetchBlock cfg ram blocks { v with rate := rate }
      = { fetchBlock cfg ram blocks v with rate := rate } := by
  unfold fetchBlock
  dsimp only
  rw [applyFlags_eq, applyFlags_eq]

theorem crossBoundary_withRate (cfg : Config) (ram : Memory) (blocks : Nat) (v : Voice)
    (rate : U16) :
    crossBoundary cfg ram blocks { v with rate := rate }
      = { crossBoundary cfg ram blocks v with rate := rate } := by
  unfold crossBoundary
  dsimp only
  rw [fetchBlock_withRate]
  split
  · dsimp only
    split <;> rfl
  · dsimp only
    split <;> rfl

theorem crossBoundaries_withRate (cfg : Config) (ram : Memory) (blocks n : Nat) (v : Voice)
    (rate : U16) :
    crossBoundaries cfg ram blocks n { v with rate := rate }
      = { crossBoundaries cfg ram blocks n v with rate := rate } := by
  induction n generalizing v with
  | zero => rfl
  | succ n ih =>
    by_cases hoff : v.phase = .off
    · rw [crossBoundaries_of_off cfg ram blocks _ hoff,
        crossBoundaries_of_off (v := { v with rate := rate }) cfg ram blocks _ hoff]
    · rw [crossBoundaries_succ_of_running cfg ram blocks n hoff,
        crossBoundaries_succ_of_running (v := { v with rate := rate }) cfg ram blocks n hoff,
        crossBoundary_withRate, ih]

theorem envTick_withRate (v : Voice) (rate : U16) :
    envTick { v with rate := rate } = { envTick v with rate := rate } := by
  have hsame : SameEnvelope { v with rate := rate } v := ⟨rfl, rfl, rfl, rfl⟩
  rw [envTick_frame { v with rate := rate }, hsame.envTick.level, hsame.envTick.phase,
    hsame.envTick.envWait]
  exact congrArg (fun w : Voice => { w with rate := rate }) (envTick_frame v).symm

/-- A step of a voice depends on its rate only through the clamped rate. -/
theorem voiceStep_withRate (cfg : Config) (ram : Memory) (blocks : Nat) (v : Voice) {rate : U16}
    (h : min rate.toNat rateMax = min v.rate.toNat rateMax) :
    let o := voiceStep cfg ram blocks v
    voiceStep cfg ram blocks { v with rate := rate }
      = { o with voice := { o.voice with rate := rate } } := by
  have hadvance : advancePhase { v with rate := rate }
      = ({ (advancePhase v).1 with rate := rate }, (advancePhase v).2) := by
    simp only [advancePhase, h]
  simp only [voiceStep, hadvance, crossBoundaries_withRate, envTick_withRate]
  split
  · rfl
  · split
    · rfl
    · split <;> rfl

/-- Settles O42: one division by 4096, and the clamp of the rate. -/
theorem phaseAdvance : Obligations.PhaseAdvance := by
  refine ⟨fun v hfrac => ?_, fun cfg ram blocks v hrate => ?_⟩
  · have hnative := advancePhase_of_native_rate hfrac
    refine ⟨?_, ?_, ?_, fun hrate => ⟨by rw [hnative hrate], by rw [hnative hrate]⟩⟩
    all_goals
      rw [advancePhase_eq]
      dsimp only
      omega
  · have hclamp : min v.rate.toNat rateMax = min (0x4000#16).toNat rateMax :=
      (Nat.min_eq_right (Nat.le_of_lt hrate)).trans rfl
    exact voiceStep_withRate cfg ram blocks { v with rate := 0x4000 } hclamp

end Sys2Proof.Machine
end

section
/-! PROOFS. The contribution of a voice (spec file 41, rules R149 and R153 to R158): the window, the default
interpolator, and the scaling by level and volume. -/

namespace Sys2Proof.Machine

/-! The window (R153). -/

theorem windowSample_hist (v : Voice) (j : Fin 4) : windowSample v j.val = v.hist.get j := by
  have hlen : v.hist.toList.length = 4 := v.hist.length_toList
  rw [windowSample, List.getD_append _ _ _ _ (by omega), List.getD_eq_getElem _ _ (by omega),
    Vector.getElem_toList]
  rfl

theorem windowSample_pcm (v : Voice) (j : Fin 28) : windowSample v (4 + j.val) = v.pcm.get j := by
  have hlen : v.hist.toList.length = 4 := v.hist.length_toList
  have hlen' : v.pcm.toList.length = 28 := v.pcm.length_toList
  have hindex : 4 + j.val - v.hist.toList.length = j.val := by omega
  rw [windowSample, List.getD_append_right _ _ _ _ (by omega), hindex,
    List.getD_eq_getElem _ _ (by omega), Vector.getElem_toList]
  rfl

/-- The interpolator is given the four newest consumed samples. -/
theorem interpolate_eq (cfg : Config) (v : Voice) :
    interpolate cfg v = cfg.interp (windowSample v (4 + v.sidx - 4)) (windowSample v (4 + v.sidx - 3))
      (windowSample v (4 + v.sidx - 2)) (windowSample v (4 + v.sidx - 1)) v.frac := by
  rw [interpolate, show 4 + v.sidx - 4 = v.sidx by omega, show 4 + v.sidx - 3 = v.sidx + 1 by omega,
    show 4 + v.sidx - 2 = v.sidx + 2 by omega, show 4 + v.sidx - 1 = v.sidx + 3 by omega]

/-- A voice whose samples are all zero. -/
structure SilentWindow (v : Voice) : Prop where
  hist : ∀ j : Fin 4, v.hist.get j = 0
  pcm : ∀ j : Fin 28, v.pcm.get j = 0

theorem SilentWindow.windowSample {v : Voice} (h : SilentWindow v) {n : Nat} (hn : n < 32) :
    windowSample v n = 0 := by
  by_cases hold : n < 4
  · exact (windowSample_hist v ⟨n, hold⟩).trans (h.hist _)
  · have hpcm := (windowSample_pcm v ⟨n - 4, by omega⟩).trans (h.pcm _)
    rwa [Nat.add_sub_cancel' (Nat.not_lt.1 hold)] at hpcm

/-- A silent window gives silence in every configuration (R155). -/
theorem SilentWindow.interpolate {v : Voice} (h : SilentWindow v) (cfg : Config)
    (hsidx : v.sidx ≤ 28) (hfrac : v.frac ≤ 0xFFF) : interpolate cfg v = 0 := by
  rw [Machine.interpolate, h.windowSample (by omega), h.windowSample (by omega),
    h.windowSample (by omega), h.windowSample (by omega), cfg.interp_zero v.frac hfrac]

/-! The default interpolator (R154). -/

/-- A part of a difference, rounded to the floor, lies between 0 and the difference. -/
theorem mul_ediv_between (d f : Int) (hf : 0 ≤ f) (hf' : f ≤ 4096) :
    min 0 d ≤ d * f / 4096 ∧ d * f / 4096 ≤ max 0 d := by
  obtain hd | hd := Int.le_total 0 d
  · have hlow := Int.mul_nonneg hd hf
    have hhigh := Int.mul_le_mul_of_nonneg_left hf' hd
    omega
  · have hlow := Int.mul_le_mul_of_nonpos_left hd hf'
    have hhigh := Int.mul_nonpos_of_nonpos_of_nonneg hd hf
    omega

/-- The linear interpolation needs no saturation: its value lies between its two samples. -/
theorem toInt_linearInterp (s3 s2 s1 s0 : S16) {frac : Nat} (hfrac : frac ≤ 0xFFF) :
    (linearInterp s3 s2 s1 s0 frac).toInt = s1.toInt + (s0.toInt - s1.toInt) * frac / 4096 := by
  have hbetween := mul_ediv_between (s0.toInt - s1.toInt) frac (by omega) (by omega)
  have hs0 := toInt_bounds s0
  have hs1 := toInt_bounds s1
  have hasr : asr ((s0.toInt - s1.toInt) * frac) 12 = (s0.toInt - s1.toInt) * frac / 4096 := rfl
  rw [linearInterp, hasr, toInt_toS16 _ (by omega) (by omega)]

/-- Settles O47: the window by its two parts, the interpolator by the part of the difference it adds. -/
theorem interpolation : Obligations.Interpolation := by
  refine ⟨fun v => ⟨windowSample_hist v, windowSample_pcm v, fun cfg _ _ => interpolate_eq cfg v⟩,
    fun s3 s2 s1 s0 frac hfrac => ?_⟩
  have hout : (defaultConfig.interp s3 s2 s1 s0 frac).toInt
      = s1.toInt + (s0.toInt - s1.toInt) * frac / 4096 := toInt_linearInterp s3 s2 s1 s0 hfrac
  have hbetween := mul_ediv_between (s0.toInt - s1.toInt) frac (by omega) (by omega)
  refine ⟨hout, by omega, by omega, fun hzero => BitVec.eq_of_toInt_eq ?_⟩
  simpa [hzero] using hout

/-! The step of a voice that runs, and of one that does not. -/

/-- Settles O41: the two checks before anything is done. -/
theorem silentVoiceUntouched : Obligations.SilentVoiceUntouched := by
  intro cfg ram blocks v hsilent
  obtain ⟨-, hstep⟩ | ⟨hd, hp, -⟩ | ⟨hd, hp, -⟩ := voiceStep_voice_cases cfg ram blocks v
  · exact hstep
  · simp [hd, hp] at hsilent
  · simp [hd, hp] at hsilent

section
variable (cfg : Config) (ram : Memory) (blocks : Nat) {v : Voice}

/-- A walk that stops the voice leaves it silent, and its envelope does not tick. -/
theorem voiceStep_of_stopped (henabled : v.disabled = false) (hrun : v.phase ≠ .off)
    (hstop : (crossBoundaries cfg ram blocks (advancePhase v).2 (advancePhase v).1).phase = .off) :
    voiceStep cfg ram blocks v
      = ⟨crossBoundaries cfg ram blocks (advancePhase v).2 (advancePhase v).1, 0, 0⟩ := by
  simp [voiceStep, henabled, hrun, hstop]

/-- A voice that the walk does not stop is interpolated and then ticked. -/
theorem voiceStep_of_running (henabled : v.disabled = false) (hrun : v.phase ≠ .off)
    (hgoes : (crossBoundaries cfg ram blocks (advancePhase v).2 (advancePhase v).1).phase ≠ .off) :
    let w := crossBoundaries cfg ram blocks (advancePhase v).2 (advancePhase v).1
    voiceStep cfg ram blocks v = voiceOutput (interpolate cfg w) (envTick w) := by
  simp [voiceStep, henabled, hrun, hgoes]

end

/-- Settles O46: no boundary is crossed at rate zero, and a sample of 0 contributes 0. -/
theorem rateZero : Obligations.RateZero := by
  intro cfg ram blocks v henabled hrun hfrac hrate
  have hwalk : crossBoundaries cfg ram blocks (advancePhase v).2 (advancePhase v).1 = v := by
    rw [advancePhase_of_rate_zero hfrac hrate, crossBoundaries]
  have hstep := voiceStep_of_running cfg ram blocks henabled hrun (by rwa [hwalk])
  dsimp only at hstep
  rw [hwalk] at hstep
  refine ⟨by rw [hstep]; rfl, fun _ hsidx hhist hpcm => ?_⟩
  have hsilent := SilentWindow.interpolate ⟨hhist, hpcm⟩ cfg hsidx hfrac
  rw [hstep, hsilent]
  simp [voiceOutput, asr]

/-! The scaling (R158). -/

/-- A sample scaled by a level. -/
theorem sample_mul_level_bounds (s : S16) {level : Nat} (h : level ≤ 0x7FFF) :
    -32767 ≤ s.toInt * level / 32768 ∧ s.toInt * level / 32768 ≤ 32766 := by
  obtain ⟨hmin, hmax⟩ := toInt_bounds s
  have hlow : -32768 * 32767 ≤ s.toInt * level := by nlinarith
  have hhigh : s.toInt * level ≤ 32767 * 32767 := by nlinarith
  omega

/-- A scaled sample, scaled by a volume. -/
theorem scale_bounds {e : Int} (volume : S16) (hmin : -32767 ≤ e) (hmax : e ≤ 32767) :
    -32767 ≤ scale e volume ∧ scale e volume ≤ 32767 := by
  obtain ⟨hmin', hmax'⟩ := toInt_bounds volume
  rw [scale_eq_div]
  have hlow : -32767 * 32768 ≤ e * volume.toInt := by nlinarith
  have hhigh : e * volume.toInt ≤ 32767 * 32768 := by nlinarith
  omega

/-- The contribution of a voice with these volumes. -/
theorem voiceOutput_eq (s : S16) {v : Voice} {volL volR : S16} (hl : v.volL = volL)
    (hr : v.volR = volR) :
    let e := s.toInt * v.level / 32768
    voiceOutput s v = ⟨v, e * volL.toInt / 32768, e * volR.toInt / 32768⟩ := by
  subst hl hr
  rfl

/-- The contribution of a voice at a level in range is in range. -/
theorem voiceOutput_bounds (s : S16) {v : Voice} (h : v.level ≤ 0x7FFF) :
    let o := voiceOutput s v
    (-32767 ≤ o.left ∧ o.left ≤ 32767 ∧ -32767 ≤ o.right ∧ o.right ≤ 32767) := by
  obtain ⟨hmin, hmax⟩ := sample_mul_level_bounds s h
  have hmax' : s.toInt * v.level / 32768 ≤ 32767 := by omega
  obtain ⟨hl, hl'⟩ := scale_bounds v.volL hmin hmax'
  obtain ⟨hr, hr'⟩ := scale_bounds v.volR hmin hmax'
  exact ⟨hl, hl', hr, hr'⟩

/-- The walk keeps the ranges of a voice, and so does the tick after it. -/
theorem envTick_walk_level_le (cfg : Config) (ram : Memory) (blocks : Nat) {v : Voice} (h : v.Ok) :
    (envTick (crossBoundaries cfg ram blocks (advancePhase v).2 (advancePhase v).1)).level ≤ 0x7FFF :=
  (envTick_ok (crossBoundaries_ok cfg ram blocks _ (advancePhase_ok h))).level

/-- Settles O48: by the three outcomes of a voice step; the volumes are those before it. -/
theorem voiceOutputResult : Obligations.VoiceOutput := by
  intro cfg ram blocks v hok
  have hlevel := envTick_walk_level_le cfg ram blocks hok
  refine ⟨?_, fun henabled hrun => ⟨voiceStep_of_stopped cfg ram blocks henabled hrun, fun hgoes => ?_⟩⟩
  · have hsilence : (-32767 : Int) ≤ 0 ∧ (0 : Int) ≤ 32767 ∧ (-32767 : Int) ≤ 0 ∧ (0 : Int) ≤ 32767 := by
      decide
    obtain ⟨-, hstep⟩ | ⟨-, -, -, hstep⟩ | ⟨-, -, -, hstep⟩ := voiceStep_voice_cases cfg ram blocks v
    · rw [hstep]; exact hsilence
    · rw [hstep]; exact hsilence
    · rw [hstep]; exact voiceOutput_bounds _ hlevel
  · obtain ⟨-, hvolL, hvolR, -⟩ := voiceStep_registers cfg ram blocks v
    have hstep := voiceStep_of_running cfg ram blocks henabled hrun hgoes
    rw [hstep] at hvolL hvolR
    exact ⟨hstep.trans (voiceOutput_eq _ hvolL hvolR), sample_mul_level_bounds _ hlevel⟩

end Sys2Proof.Machine
end

section
/-! PROOFS. The phases of a voice (spec file 41, rule R140): which edge a tick, a walk and an operation
take. -/

namespace Sys2Proof.Machine

/-- To stay in a phase is no transition. -/
theorem stepTransition_refl (p : Phase) : stepTransition p p = true := by
  cases p with
  | _ => rfl

/-- A stop is allowed in every phase (R152). -/
theorem stepTransition_off (p : Phase) : stepTransition p .off = true := by
  cases p with
  | _ => rfl

/-- The one change of the level takes the phase to the next one, or keeps it (R166). -/
theorem envChange_phase (row : EnvRow) (v : Voice) :
    stepTransition v.phase (envChange row v).phase = true := by
  cases hphase : v.phase with
  | off =>
    simp only [envChange, hphase]
    rfl
  | attack =>
    rw [envChange_of_attack row hphase]
    split
    · rfl
    · exact hphase ▸ stepTransition_refl _
  | decay =>
    rw [envChange_of_decay row hphase]
    split
    · rfl
    · exact hphase ▸ stepTransition_refl _
  | sustain =>
    rw [envChange_of_sustain row hphase]
    exact hphase ▸ stepTransition_refl _
  | release =>
    rw [envChange_of_release row hphase]
    split
    · rfl
    · exact hphase ▸ stepTransition_refl _

theorem envTick_phase (v : Voice) : stepTransition v.phase (envTick v).phase = true := by
  by_cases hoff : v.phase = .off
  · rw [envTick_of_off hoff]
    exact stepTransition_refl _
  by_cases hwait : 1 < v.envWait
  · rw [envTick_of_wait hoff hwait]
    exact stepTransition_refl _
  · obtain ⟨row, hrow⟩ := envRow_of_not_off hoff v.adsr
    rw [envTick_of_due hrow (Nat.not_lt.1 hwait)]
    exact envChange_phase row v

/-- A step of a voice takes one of the edges of R140 that are STEP's: a stop at a block, or a tick. -/
theorem voiceStep_phase (cfg : Config) (ram : Memory) (blocks : Nat) (v : Voice) :
    stepTransition v.phase (voiceStep cfg ram blocks v).voice.phase = true := by
  obtain ⟨-, hstep⟩ | ⟨-, -, hstop, hstep⟩ | ⟨-, -, hgoes, hstep⟩ :=
    voiceStep_voice_cases cfg ram blocks v
  · rw [hstep]
    exact stepTransition_refl _
  · rw [hstep]
    exact hstop ▸ stepTransition_off _
  · obtain ⟨hphase, -⟩ | ⟨hstop, -⟩ :=
      crossBoundaries_envelope cfg ram blocks (advancePhase v).2 (advancePhase v).1
    · have htick := envTick_phase
        (crossBoundaries cfg ram blocks (advancePhase v).2 (advancePhase v).1)
      rw [hphase] at htick
      rw [hstep]
      exact htick
    · exact absurd hstop hgoes

/-- The voices of a STEP, one by one (R213). -/
theorem stepRule_getElem? (cfg : Config) {s : State} {n : Nat} {v : Voice}
    (hv : s.voices[n]? = some v) :
    (stepRule cfg s).voices[n]? = some (voiceStep cfg s.ram (s.ramSize / 16) v).voice := by
  simp [stepRule, hv]

/-- No register write touches the voices. -/
theorem GlobalWrite.voices {i : Instr} {f : State → State} (hw : GlobalWrite i f) (s : State) :
    (f s).voices = s.voices := by
  cases hw with
  | _ => rfl

/-- Of the operations on a voice, only KON and KOFF change its phase. -/
theorem VoiceWrite.phase {i : Instr} {n : Nat} {f : Voice → Voice} (hw : VoiceWrite i n f)
    (hkon : i ≠ .kon n) (hkoff : i ≠ .koff n) (v : Voice) : (f v).phase = v.phase := by
  cases hw with
  | kon => exact absurd rfl hkon
  | koff => exact absurd rfl hkoff
  | _ => rfl

/-- Any other operation allows a voice to keep its phase. -/
theorem phaseEdge_refl {i : Instr} {n : Nat} (hkon : i ≠ .kon n) (hkoff : i ≠ .koff n) (p : Phase) :
    phaseEdge i n p p = true := by
  cases i with
  | kon m =>
    have hne : m ≠ n := fun h => hkon (h ▸ rfl)
    simp [phaseEdge, hne]
  | koff m =>
    have hne : m ≠ n := fun h => hkoff (h ▸ rfl)
    simp [phaseEdge, hne]
  | step => exact stepTransition_refl p
  | _ => exact beq_self_eq_true p

/-- An operation on a live engine that is not KON or KOFF of voice n takes it along an edge of STEP, or
keeps its phase. -/
theorem Effect.phaseEdge {cfg : Config} {s t : State} {i : Instr} (he : Effect cfg s i t) {n : Nat}
    {v w : Voice} (hlive : s.live = true) (hv : s.voices[n]? = some v) (hw : t.voices[n]? = some w)
    (hkon : i ≠ .kon n) (hkoff : i ≠ .koff n) : phaseEdge i n v.phase w.phase = true := by
  have hkeep {u : Voice} (hu : t.voices[n]? = some u) (hphase : u.phase = v.phase) :
      Machine.phaseEdge i n v.phase w.phase = true := by
    obtain rfl : u = w := Option.some.inj (hu.symm.trans hw)
    exact hphase ▸ phaseEdge_refl hkon hkoff _
  cases he with
  | answer => exact hkeep hv rfl
  | init hdead => exact absurd hlive (by simp [hdead])
  | destroy => cases hw
  | step =>
    obtain rfl := Option.some.inj ((stepRule_getElem? cfg hv).symm.trans hw)
    exact voiceStep_phase cfg s.ram _ v
  | ramWr => exact hkeep hv rfl
  | @voiceWrite _ m f v' hwrite _ hv' =>
    by_cases hm : m = n
    · subst hm
      obtain rfl : v' = v := Option.some.inj (hv'.symm.trans hv)
      exact hkeep (setVoice_getElem? _ hv) (hwrite.phase hkon hkoff v')
    · exact hkeep ((List.getElem?_set_ne hm).trans hv) rfl
  | globalWrite hwrite => exact hkeep (hwrite.voices s ▸ hv) rfl

/-- Settles O40: KON and KOFF of the voice by their own rule, every other operation by its effect. -/
theorem phaseTransitions : Obligations.PhaseTransitions := by
  intro i s t n v w hlive hexec hv hw
  by_cases hkon : i = .kon n
  · subst hkon
    obtain rfl := next_inj ((exec_kon_of_voice hlive hv).symm.trans hexec)
    obtain rfl : keyOn v = w := Option.some.inj ((setVoice_getElem? _ hv).symm.trans hw)
    simp [phaseEdge]
  by_cases hkoff : i = .koff n
  · subst hkoff
    obtain rfl := next_inj ((exec_koff_of_voice hlive hv).symm.trans hexec)
    obtain rfl : keyOff v = w := Option.some.inj ((setVoice_getElem? _ hv).symm.trans hw)
    by_cases hoff : v.phase = .off
    · simp [phaseEdge, keyOff_of_off hoff, hoff]
    · simp [phaseEdge, keyOff_of_not_off hoff, hoff]
  · exact (execWith_effect (execWith_default ▸ hexec)).phaseEdge hlive hv hw hkon hkoff

end Sys2Proof.Machine
end

section
/-! PROOFS. The bounded release (spec file 41, rule R167): each change of a release lowers the level, so the
ticks that are left fall by one at each STEP. -/

namespace Sys2Proof.Machine

/-! The bound, as a number of changes and the ticks of each. -/

/-- The changes that a release takes at most (R167). -/
def releaseChanges (d : Word32) (level : Nat) : Nat :=
  if adsrRMode d = true then level
  else (level + 8 * 2 ^ (11 - adsrRShift d) - 1) / (8 * 2 ^ (11 - adsrRShift d))

theorem releaseBound_eq (d : Word32) (level : Nat) :
    releaseBound d level = releaseChanges d level * releaseCycles d := by
  simp only [releaseBound, releaseChanges, releaseCycles, ite_mul]

theorem releaseCycles_pos (d : Word32) : 0 < releaseCycles d := Nat.two_pow_pos _

theorem releaseCycles_le (d : Word32) : releaseCycles d ≤ 2 ^ 20 := by
  have hshift : adsrRShift d < 32 := (d.extractLsb' 16 5).isLt
  exact Nat.pow_le_pow_right (by omega) (by omega)

theorem linearFall_pos (d : Word32) : 0 < 8 * 2 ^ (11 - adsrRShift d) :=
  Nat.mul_pos (by omega) (Nat.two_pow_pos _)

/-- An exponential fall from a level above 0 is at least 1 (R163). -/
theorem expFall_pos {fall level : Nat} (hfall : 0 < fall) (hlevel : 0 < level) :
    0 < expFall fall level := by
  have := Nat.mul_pos hfall hlevel
  rw [expFall]
  omega

theorem releaseChanges_le (d : Word32) (level : Nat) : releaseChanges d level ≤ level := by
  unfold releaseChanges
  split
  · exact Nat.le_refl _
  · have hpos := linearFall_pos d
    generalize 8 * 2 ^ (11 - adsrRShift d) = fall at hpos
    rw [← Nat.lt_succ_iff, Nat.div_lt_iff_lt_mul hpos, Nat.succ_mul]
    have := Nat.le_mul_of_pos_right level hpos
    omega

theorem releaseChanges_mono (d : Word32) {level level' : Nat} (h : level ≤ level') :
    releaseChanges d level ≤ releaseChanges d level' := by
  unfold releaseChanges
  split
  · exact h
  · exact Nat.div_le_div_right (by omega)

/-- After a change that does not end the release, one change fewer is left. -/
theorem releaseChanges_fall (d : Word32) {level : Nat} (h : releaseFall d level < level) :
    releaseChanges d (level - releaseFall d level) + 1 ≤ releaseChanges d level := by
  unfold releaseChanges
  unfold releaseFall at h ⊢
  have hpos := linearFall_pos d
  generalize 8 * 2 ^ (11 - adsrRShift d) = fall at h hpos ⊢
  by_cases hmode : adsrRMode d = true
  · simp only [if_pos hmode] at h ⊢
    have := expFall_pos hpos (level := level) (by omega)
    omega
  · simp only [if_neg hmode] at h ⊢
    rw [← Nat.add_div_right _ hpos]
    exact Nat.div_le_div_right (by omega)

theorem releaseChanges_pos (d : Word32) {level : Nat} (h : 0 < level) :
    0 < releaseChanges d level := by
  unfold releaseChanges
  split
  · exact h
  · exact Nat.div_pos (by omega) (linearFall_pos d)

/-! The ticks that are left. -/

/-- The ticks that a voice in Release takes at most until it is Off. -/
def releaseTicks (v : Voice) : Nat :=
  max 1 v.envWait + (releaseChanges v.adsr v.level - 1) * releaseCycles v.adsr

/-- An enabled voice that is Off, or in Release for at most `k` more ticks. -/
def ReleasedWithin (k : Nat) (v : Voice) : Prop :=
  v.phase = .off ∨ v.disabled = false ∧ v.phase = .release ∧ releaseTicks v ≤ k

/-- The change of the level ends the release, or leaves a wait and one change fewer. -/
theorem envTick_of_release_due {v : Voice} (hphase : v.phase = .release) (hwait : v.envWait ≤ 1) :
    (envTick v).phase = .off ∨
      (envTick v).phase = .release ∧ (envTick v).envWait = releaseCycles v.adsr ∧
        0 < (envTick v).level ∧
        releaseChanges v.adsr (envTick v).level + 1 ≤ releaseChanges v.adsr v.level := by
  have htick := envTick_of_release hphase hwait
  dsimp only at htick
  rw [htick]
  split
  next => exact .inl rfl
  next hlevel =>
    have hfall := releaseChanges_fall v.adsr (level := v.level) (by omega)
    have hclamp := releaseChanges_mono v.adsr
      (Nat.min_le_right 0x7FFF (v.level - releaseFall v.adsr v.level))
    exact .inr ⟨hphase, rfl, Nat.pos_of_ne_zero hlevel, Nat.le_trans (Nat.succ_le_succ hclamp) hfall⟩

/-- A tick leaves one tick fewer. -/
theorem envTick_releasedWithin {v : Voice} {k : Nat} (h : ReleasedWithin (k + 1) v) :
    ReleasedWithin k (envTick v) := by
  obtain hoff | ⟨henabled, hphase, hticks⟩ := h
  · exact .inl ((congrArg Voice.phase (envTick_of_off hoff)).trans hoff)
  have hadsr : (envTick v).adsr = v.adsr := by rw [envTick_frame]
  have henabled' : (envTick v).disabled = false := by rw [envTick_frame, henabled]
  rw [releaseTicks] at hticks
  by_cases hwait : 1 < v.envWait
  · have hrun : v.phase ≠ .off := by simp [hphase]
    rw [envTick_of_wait hrun hwait]
    refine .inr ⟨henabled, hphase, ?_⟩
    simp only [releaseTicks]
    omega
  · obtain hoff | ⟨hphase', hwait', hlevel, hchanges⟩ :=
      envTick_of_release_due hphase (Nat.not_lt.1 hwait)
    · exact .inl hoff
    · refine .inr ⟨henabled', hphase', ?_⟩
      have hcycles := releaseCycles_pos v.adsr
      have hleft := releaseChanges_pos v.adsr hlevel
      calc releaseTicks (envTick v)
        _ = releaseCycles v.adsr
              + (releaseChanges v.adsr (envTick v).level - 1) * releaseCycles v.adsr := by
          rw [releaseTicks, hadsr, hwait', Nat.max_eq_right hcycles]
        _ = releaseChanges v.adsr (envTick v).level * releaseCycles v.adsr := by
          rw [Nat.add_comm, ← Nat.succ_mul, Nat.succ_eq_add_one, Nat.sub_add_cancel hleft]
        _ ≤ (releaseChanges v.adsr v.level - 1) * releaseCycles v.adsr :=
          Nat.mul_le_mul_right _ (Nat.le_sub_one_of_lt hchanges)
        _ ≤ k := by omega

/-- The walk before the tick leaves the release as it is, or stops the voice. -/
theorem crossBoundaries_releasedWithin (cfg : Config) (ram : Memory) (blocks n : Nat) {v : Voice}
    {k : Nat} (h : ReleasedWithin k v) :
    ReleasedWithin k (crossBoundaries cfg ram blocks n v) := by
  obtain ⟨hphase, hlevel, hwait⟩ | ⟨hoff, -⟩ := crossBoundaries_envelope cfg ram blocks n v
  · obtain ⟨-, -, -, hadsr, -, hdisabled, -⟩ := crossBoundaries_registers cfg ram blocks n v
    simpa only [ReleasedWithin, releaseTicks, hphase, hlevel, hwait, hadsr, hdisabled] using h
  · exact .inl hoff

/-- A STEP leaves a voice in Release one tick fewer, whatever RAM holds. -/
theorem voiceStep_releasedWithin (cfg : Config) (ram : Memory) (blocks : Nat) {v : Voice} {k : Nat}
    (h : ReleasedWithin (k + 1) v) : ReleasedWithin k (voiceStep cfg ram blocks v).voice := by
  have hadvanced : ReleasedWithin (k + 1) (advancePhase v).1 := h
  have hwalk := crossBoundaries_releasedWithin cfg ram blocks (advancePhase v).2 hadvanced
  obtain ⟨hsilent, hstep⟩ | ⟨-, -, hstop, hstep⟩ | ⟨-, -, -, hstep⟩ :=
    voiceStep_voice_cases cfg ram blocks v
  · rw [hstep]
    obtain hoff | ⟨henabled, hphase, -⟩ := h
    · exact .inl hoff
    · simp [henabled, hphase] at hsilent
  · rw [hstep]
    exact .inl hstop
  · rw [hstep]
    exact envTick_releasedWithin hwalk

/-- No tick is left but for a voice that is Off. -/
theorem ReleasedWithin.off {v : Voice} (h : ReleasedWithin 0 v) : v.phase = .off := by
  obtain hoff | ⟨-, -, hticks⟩ := h
  · exact hoff
  · rw [releaseTicks] at hticks
    omega

/-- KOFF starts a release within the bound of R167, of one tick at least (R169). -/
theorem keyOff_releasedWithin {v : Voice} {k : Nat} (henabled : v.disabled = false)
    (hk : max 1 (releaseBound v.adsr v.level) ≤ k) : ReleasedWithin k (keyOff v) := by
  by_cases hoff : v.phase = .off
  · rw [keyOff_of_off hoff]
    exact .inl hoff
  rw [keyOff_of_not_off hoff]
  refine .inr ⟨henabled, rfl, ?_⟩
  have hcycles := releaseCycles_pos v.adsr
  rw [releaseBound_eq] at hk
  simp only [releaseTicks, Nat.sub_one_mul]
  omega

/-! The run of the machine. -/

/-- STEPs of a live engine complete, and the voice is Off after the last of its ticks. -/
theorem runOps_steps_release {s : State} {n k : Nat} {v : Voice} (hlive : s.live = true)
    (hv : s.voices[n]? = some v) (h : ReleasedWithin k v) :
    ∃ t w, runOps (List.replicate k .step) s = .next t ∧ t.voices[n]? = some w ∧ w.phase = .off := by
  induction k generalizing s v with
  | zero => exact ⟨s, v, rfl, hv, h.off⟩
  | succ k ih =>
    have hstep : exec .step s = .next (stepRule defaultConfig s) :=
      execStepWith_of_live defaultConfig hlive
    rw [List.replicate_succ, runOps, runOpsOf_cons_of_next hstep]
    exact ih hlive (stepRule_getElem? defaultConfig hv)
      (voiceStep_releasedWithin defaultConfig s.ram _ h)

/-- Settles O56: KOFF starts a release within the bound, and each STEP leaves one tick fewer. -/
theorem boundedRelease : Obligations.BoundedRelease := by
  refine ⟨fun s n k v hlive hv henabled hk => ?_, fun d level hlevel => ?_⟩
  · obtain ⟨t, w, hrun, hw⟩ := runOps_steps_release
      (s := answered (okWord 0) (setVoice n (keyOff v) s)) hlive (setVoice_getElem? (keyOff v) hv)
      (keyOff_releasedWithin henabled hk)
    exact ⟨t, w, (runOpsOf_cons_of_next (exec_koff_of_voice hlive hv)).trans hrun, hw⟩
  · rw [releaseBound_eq]
    exact Nat.mul_le_mul (Nat.le_trans (releaseChanges_le d level) hlevel) (releaseCycles_le d)

end Sys2Proof.Machine
end

section
/-! PROOFS. The arithmetic and the accesses of the Reverb Unit (spec file 42, rules R182, R185, R191
and R196): exact integers clamped once, what a stage stores and answers, and how the cursor moves. -/

namespace Sys2Proof.Machine

/-! The arithmetic of R182. A zero sample is spelt `0#16`, as `simp` spells it. -/

@[simp] theorem mulSat_zero_left (v : S16) : mulSat 0#16 v = 0#16 :=
  (congrArg sat16 (scale_zero_left v)).trans sat16_zero

@[simp] theorem mulSat_zero_right (a : S16) : mulSat a 0#16 = 0#16 :=
  (congrArg sat16 (scale_zero_right a.toInt)).trans sat16_zero

@[simp] theorem addSat_zero_left (b : S16) : addSat 0#16 b = b := by
  rw [addSat, BitVec.toInt_zero, zero_add, sat16_toInt]

@[simp] theorem subSat_zero_right (a : S16) : subSat a 0#16 = a := by
  rw [subSat, BitVec.toInt_zero, sub_zero, sat16_toInt]

/-- Scaling by a gain of magnitude at most 1 (in units of 1/32768) does not enlarge the magnitude. -/
theorem mul_div_bounds {a v m : Int} (ha : |a| ≤ m) (hv : |v| ≤ 32768) :
    -m ≤ a * v / 32768 ∧ a * v / 32768 ≤ m := by
  have hmul : |a * v| ≤ m * 32768 :=
    abs_mul a v ▸ mul_le_mul ha hv (abs_nonneg v) ((abs_nonneg a).trans ha)
  have hbounds := abs_le.1 hmul
  omega

/-- The scaled product is in int16 range unless both factors are -32768: else one of them has magnitude
at most 32767. -/
theorem scaled_product_in_range (a v : S16) (h : ¬ (a.toInt = -32768 ∧ v.toInt = -32768)) :
    -32768 ≤ a.toInt * v.toInt / 32768 ∧ a.toInt * v.toInt / 32768 ≤ 32767 := by
  have ha := toInt_bounds a
  have hv := toInt_bounds v
  by_cases hmin : a.toInt = -32768
  · have hbounds := mul_div_bounds (a := v.toInt) (v := a.toInt) (m := 32767)
      (abs_le.2 (by omega)) (abs_le.2 (by omega))
    rw [mul_comm] at hbounds
    omega
  · have hbounds := mul_div_bounds (a := a.toInt) (v := v.toInt) (m := 32767)
      (abs_le.2 (by omega)) (abs_le.2 (by omega))
    omega

theorem toInt_mulSat (a v : S16) :
    (mulSat a v).toInt
      = if a.toInt = -32768 ∧ v.toInt = -32768 then 32767 else a.toInt * v.toInt / 32768 := by
  rw [mulSat, toInt_sat16, scale_eq_div]
  split
  next hmin =>
    rw [hmin.1, hmin.2]
    rfl
  next hmin =>
    obtain ⟨hlo, hhi⟩ := scaled_product_in_range a v hmin
    exact clamp_of_mem _ _ _ hlo hhi

/-- Settles O39: `add` and `sub` are one clamp, and `mul` needs its clamp at one pair only. -/
theorem reverbArithmetic : Obligations.ReverbArithmetic := fun a v =>
  ⟨toInt_mulSat a v, toInt_sat16 _, toInt_sat16 _⟩

/-! What a stage stores (R185, R191). -/

@[simp] theorem revRead_revWrite_same (s : State) (m : Memory) (d : Int) (v : S16) :
    revRead s (revWrite s m d v) d = v := read16_write16_same m (revAddr s d) v

/-- Settles O38: the stage's one write is read back, and reaches no byte but its two. -/
theorem allPassResult : Obligations.AllPassResult := by
  intro s x m d v ram f y
  exact ⟨revRead_revWrite_same s ram (disp s m) y, rfl,
    fun a hlow hhigh => read_allPass_other x d v ram ⟨hlow, hhigh⟩⟩

/-! The cursor (R196). -/

theorem natCast_advanceCursor {s : State} (harea : 0 < waSize s) :
    (advanceCursor s : Int) = (s.rcur + 2) % waSize s :=
  Int.toNat_of_nonneg (Int.emod_nonneg _ (by omega))

@[simp] theorem waSize_reverbProcess (l r : S16) (s : State) :
    waSize (reverbProcess l r s).1 = waSize s := by
  rw [reverbProcess_state]
  rfl

theorem reverbProcess_rcur (l r : S16) {s : State} (harea : 0 < waSize s) :
    ((reverbProcess l r s).1.rcur : Int) = (s.rcur + 2) % waSize s := by
  rw [reverbProcess_of_area l r (by omega), natCast_advanceCursor harea]

/-- After a call a displacement reaches the address that was two bytes further on before it. -/
theorem revAddr_reverbProcess (l r : S16) {s : State} (harea : 0 < waSize s) (d : Int) :
    revAddr (reverbProcess l r s).1 d = revAddr s (d + 2) := by
  have hbase : waBase (reverbProcess l r s).1 = waBase s := by
    rw [reverbProcess_state]
    rfl
  rw [revAddr, revAddr, hbase, waSize_reverbProcess, reverbProcess_rcur l r harea,
    Int.emod_add_emod, add_assoc, add_comm 2 d]

theorem disp_reverbProcess (l r : S16) (s : State) (k : RevReg) :
    disp (reverbProcess l r s).1 k = disp s k := by
  rw [reverbProcess_state]
  rfl

/-- Settles O37: the reflection's one write is read back, and the cursor's advance by two bytes makes up
for the displacement two bytes lower. -/
theorem reflectionAndPreviousValue : Obligations.ReflectionAndPreviousValue := by
  intro s harea
  refine ⟨fun inp d m ram => ⟨revRead_revWrite_same s ram (disp s m) _,
    fun a hlow hhigh => read_reflect_other inp d ram ⟨hlow, hhigh⟩⟩, fun l r m => ?_⟩
  dsimp only
  rw [revRead, revRead, disp_reverbProcess, revAddr_reverbProcess l r harea, sub_add_cancel]

/-- Settles O36, by induction on the inputs: each call moves the cursor by two bytes and keeps the work
area, and the remainders taken call by call come to one. -/
theorem cursorAdvance : Obligations.CursorAdvance := by
  intro s ins harea hcursor
  induction ins generalizing s with
  | nil => simp [Int.emod_eq_of_lt (Int.natCast_nonneg s.rcur) hcursor]
  | cons p ins ih =>
    have hrcur := reverbProcess_rcur p.left p.right harea
    have hinside : ((reverbProcess p.left p.right s).1.rcur : Int) < waSize s :=
      hrcur ▸ Int.emod_lt_of_pos _ harea
    rw [List.foldl_cons, ih _ (by rwa [waSize_reverbProcess]) (by rwa [waSize_reverbProcess]),
      waSize_reverbProcess, hrcur, Int.emod_add_emod, List.length_cons]
    congr 1
    omega

end Sys2Proof.Machine
end

section
/-! PROOFS. The silence of the Reverb Unit (spec file 42, rules R183 and R198): without a work area, on a
work area of zeros, and with its volumes at zero. -/

namespace Sys2Proof.Machine

/-! No work area (R183). -/

theorem reverbRule_of_no_area (l r : S16) {s : State} (h : waSize s ≤ 0) :
    reverbRule l r s = (s, ⟨0, 0⟩) := if_pos h

/-- Without a work area STEP does the same with REVERB_EN set and clear, but for ROUT. -/
theorem stepRule_reverbEn_of_no_area (cfg : Config) {s : State} (h : waSize s ≤ 0) :
    stepRule cfg { s with reverbEn := true } =
      { stepRule cfg { s with reverbEn := false } with reverbEn := true, routL := 0, routR := 0 } := by
  have hsilent (l r : S16) := reverbRule_of_no_area l r (s := { s with reverbEn := true }) h
  simp [stepRule, hsilent]

/-- Settles O34: the unit is silent, so STEP mixes in zeros. -/
theorem reverbDegrades : Obligations.ReverbDegrades := fun _ hnone =>
  ⟨fun l r => reverbProcess_of_no_area l r hnone, fun hlive =>
    ⟨_, _, execStepWith_of_live defaultConfig hlive, execStepWith_of_live defaultConfig hlive,
      stepRule_reverbEn_of_no_area defaultConfig hnone⟩⟩

/-! A work area of zeros (R198): writing 0 where 0 stands gives the same memory, so that each stage of the
network answers 0 and leaves RAM itself as it is. -/

/-- In canonical form an address that reads as the fill is not listed. -/
theorem absent_of_read_fill {m : Memory} {a : Nat} (hfill : ∀ c ∈ m, c.2 ≠ Memory.fill)
    (hread : Memory.read m a = Memory.fill) : ∀ c ∈ m, c.1 ≠ a := by
  induction m with
  | nil => simp
  | cons c m ih =>
    obtain ⟨hc, hm⟩ := List.forall_mem_cons.1 hfill
    rw [read_cons] at hread
    split at hread
    next => exact absurd hread hc
    next hne => exact List.forall_mem_cons.2 ⟨hne, ih hm hread⟩

/-- Writing the fill over itself changes nothing. -/
theorem write_fill_of_read_fill {m : Memory} {a : Nat} (hwf : Memory.wf m)
    (hread : Memory.read m a = Memory.fill) : Memory.write m a Memory.fill = m := by
  rw [Memory.write, if_pos rfl, List.filter_eq_self]
  intro c hc
  exact bne_iff_ne.2 (absent_of_read_fill hwf.2 hread c hc)

/-- A canonical RAM that reads as 0 all over the work area of a state that meets the invariant. -/
structure SilentArea (s : State) (m : Memory) : Prop where
  inv : s.Inv
  area : 0 < waSize s
  wf : Memory.wf m
  zero : ∀ a, 8 * s.rbase.toNat ≤ a → a < s.ramSize → Memory.read m a = 0

section
variable {s : State} {m : Memory} (h : SilentArea s m)
include h

/-- The two bytes of an access of the unit are 0 (R69). -/
theorem SilentArea.bytes {d : Int} (hd : IsDisplacement d) :
    Memory.read m (revAddr s d) = Memory.fill ∧ Memory.read m (revAddr s d + 1) = Memory.fill := by
  obtain ⟨-, hlo, hhi⟩ := revAddr_in_area h.inv h.area hd
  exact ⟨h.zero _ hlo (by omega), h.zero _ (by omega) hhi⟩

theorem SilentArea.revRead {d : Int} (hd : IsDisplacement d) : revRead s m d = 0#16 := by
  obtain ⟨hlow, hhigh⟩ := h.bytes hd
  rw [Machine.revRead, Memory.read16, hlow, hhigh]
  rfl

theorem SilentArea.revWrite {d : Int} (hd : IsDisplacement d) : revWrite s m d 0#16 = m := by
  obtain ⟨hlow, hhigh⟩ := h.bytes hd
  have hfirst : Memory.write m (revAddr s d) 0#8 = m := write_fill_of_read_fill h.wf hlow
  have hsecond : Memory.write m (revAddr s d + 1) 0#8 = m := write_fill_of_read_fill h.wf hhigh
  rw [Machine.revWrite, Memory.write16, BitVec.extractLsb'_zero, BitVec.extractLsb'_zero, hfirst,
    hsecond]

theorem SilentArea.reflect (d k : RevReg) : reflect s 0#16 d k m = m := by
  simp [Machine.reflect, h.revRead (isDisplacement_disp s d),
    h.revRead (isDisplacement_disp_sub_two s k), h.revWrite (isDisplacement_disp s k)]

theorem SilentArea.comb (k1 k2 k3 k4 : RevReg) : comb s m k1 k2 k3 k4 = 0#16 := by
  simp [Machine.comb, h.revRead (isDisplacement_disp s _)]

theorem SilentArea.allPass (k d g : RevReg) : allPass s 0#16 k d g m = (m, 0#16) := by
  simp [Machine.allPass, h.revRead (isDisplacement_disp_sub_disp s k d),
    h.revWrite (isDisplacement_disp s k)]

end

/-- The network keeps the silence of its work area, and RAM as it is (R198). -/
theorem SilentArea.reverbNetwork {s : State} (h : SilentArea s s.ram) :
    reverbNetwork s 0 0 = (s.ram, ⟨0, 0⟩) := by
  simp [Machine.reverbNetwork, Machine.reflections, h.reflect, h.comb, h.allPass]

/-- The output volume is the last factor of the network's output (R194). -/
theorem reverbNetwork_output_of_rvol_zero {s : State} (hl : s.rvolL = 0) (hr : s.rvolR = 0)
    (l r : S16) : (reverbNetwork s l r).2 = ⟨0, 0⟩ := by
  simp [reverbNetwork, hl, hr]

/-- Settles O35: on a silent area the network changes nothing but the cursor; and with RVOL at zero its
output is zero, whatever its other volumes. -/
theorem reverbSilence : Obligations.ReverbSilence := by
  intro s hinv _ harea
  have hsome : ¬ waSize s ≤ 0 := by omega
  constructor
  · intro hzero
    have hsilent : SilentArea s s.ram := ⟨hinv, harea, hinv.ramWf, hzero⟩
    rw [reverbProcess_of_area 0 0 hsome, hsilent.reverbNetwork]
    exact ⟨rfl, fun _ => rfl⟩
  · intro _ hl hr l r
    rw [reverbProcess_of_area l r hsome, reverbNetwork_output_of_rvol_zero hl hr]

end Sys2Proof.Machine
end

section
/-! PROOFS. DESTROY (spec file 43, rule R221): the engine it leaves is not live, so that every operation
but INIT faults, and holds nothing that an INIT after it could find. -/

namespace Sys2Proof.Machine

/-- On an engine that is not live every operation but INIT faults with NotLive (R229, R303). -/
theorem execWith_of_dead (cfg : Config) {i : Instr} {s : State} (hdead : s.live = false)
    (hi : ∀ nv size, i ≠ .init nv size) :
    execWith cfg i s = .next (answered (faultWord .notLive) s) := by
  have hshape := execWith_shape cfg i
  generalize execWith cfg i = run at hshape ⊢
  cases hshape with
  | init nv size => exact absurd rfl (hi nv size)
  | destroy | step | globalWrite | globalRead => exact ifLive_of_dead _ hdead
  | ramWr | ramRd => exact withAddress_of_dead _ hdead
  | voiceWrite | voiceRead => exact withVoice_of_dead _ hdead

theorem exec_of_dead {i : Instr} {s : State} (hdead : s.live = false)
    (hi : ∀ nv size, i ≠ .init nv size) :
    exec i s = .next (answered (faultWord .notLive) s) :=
  execWith_default ▸ execWith_of_dead defaultConfig hdead hi

/-- DESTROY of a live engine leaves the engine before the first INIT, with the same host (R221). -/
theorem exec_destroy_of_live {s : State} (h : s.live = true) :
    exec .destroy s = .next (answered (okWord 0) (withEngine State.reset s)) :=
  ifLive_of_live _ h

/-- Settles O12: the engine left is that of `State.reset`, which is not live. -/
theorem destroyResult : Obligations.DestroyResult :=
  ⟨decode_fields 0x02 0 0, fun _ hdead => ifLive_of_dead _ hdead, fun _ hlive =>
    ⟨_, exec_destroy_of_live hlive, rfl, rfl, rfl, rfl, rfl, fun _ hi => exec_of_dead rfl hi⟩⟩

/-- A legal INIT after DESTROY makes the engine anew, and takes from the one before the host's side only. -/
theorem runOps_destroy_init {s : State} {nv size : Nat} (hlive : s.live = true)
    (hlegal : legalParams nv size = true) :
    runOps [.destroy, .init nv size] s = .next (answered (okWord 0) (initState nv size s)) := by
  have hinit : exec (.init nv size) (answered (okWord 0) (withEngine State.reset s)) =
      .next (answered (okWord 0) (initState nv size s)) := execInit_of_legal rfl hlegal
  rw [runOps, runOpsOf_cons_of_next (exec_destroy_of_live hlive), runOpsOf_cons_of_next hinit,
    runOpsOf_nil]

/-- The state after INIT depends on the host's side alone. -/
theorem answered_initState_congr {s s' : State} (w : Word) (nv size : Nat) (hcmds : s.cmds = s'.cmds)
    (hextIn : s.extIn = s'.extIn) (hextCalls : s.extCalls = s'.extCalls) :
    answered w (initState nv size s) = answered w (initState nv size s') := by
  simp only [initState, withEngine, answered, hcmds, hextIn, hextCalls]

/-- Settles O13: both runs end in the state that INIT makes for their common host. -/
theorem nothingSurvivesDestroy : Obligations.NothingSurvivesDestroy := by
  intro s s' nv size hlive hlive' hnv hmin hmultiple hmax hcmds hextIn hextCalls
  have hlegal := (legalParams_iff nv size).2 ⟨hnv, hmin, hmultiple, hmax⟩
  refine ⟨_, runOps_destroy_init hlive hlegal, ?_⟩
  rw [runOps_destroy_init hlive' hlegal, answered_initState_congr _ nv size hcmds hextIn hextCalls]

end Sys2Proof.Machine
end

section
/-! PROOFS. What STEP alone does (spec file 43, rules R212, R217 and R218): it calls the oracle, it is
silenced by MUTE, and it counts in CYCLE. -/

namespace Sys2Proof.Machine

theorem exec_step_of_live {s : State} (h : s.live = true) :
    exec .step s = .next (stepRule defaultConfig s) :=
  execStepWith_of_live defaultConfig h

/-- A register write leaves alone the oracle, the life of the engine and CYCLE. -/
theorem GlobalWrite.keeps {i : Instr} {f : State → State} (hw : GlobalWrite i f) (s : State) :
    (f s).extCalls = s.extCalls ∧ (f s).extIn = s.extIn ∧ (f s).live = s.live ∧
      (f s).cycle = s.cycle := by
  cases hw with
  | _ => exact ⟨rfl, rfl, rfl, rfl⟩

/-! The oracle (R212). -/

/-- No operation but STEP calls the oracle. -/
theorem Effect.keeps_oracle {cfg : Config} {s t : State} {i : Instr} (he : Effect cfg s i t)
    (hi : i ≠ .step) : t.extCalls = s.extCalls ∧ t.extIn = s.extIn := by
  cases he with
  | step => exact absurd rfl hi
  | globalWrite hw =>
    obtain ⟨hcalls, hin, -⟩ := hw.keeps s
    exact ⟨hcalls, hin⟩
  | answer | init | destroy | ramWr | voiceWrite => exact ⟨rfl, rfl⟩

/-- STEP calls the oracle exactly under EXT_EN and EXT_CB. -/
theorem stepRule_oracle (cfg : Config) (s : State) :
    (s.extEn = true ∧ s.extCb = true →
      (stepRule cfg s).extCalls = s.extCalls + 1 ∧ (stepRule cfg s).extIn = s.extIn.tail) ∧
    (¬ (s.extEn = true ∧ s.extCb = true) →
      (stepRule cfg s).extCalls = s.extCalls ∧ (stepRule cfg s).extIn = s.extIn) := by
  rw [← Bool.and_eq_true]
  exact ⟨fun hcall => ⟨if_pos hcall, if_pos hcall⟩, fun hnone => ⟨if_neg hnone, if_neg hnone⟩⟩

/-- Settles O30: STEP by its rule or its fault, every other operation by its effect. -/
theorem oracleCalls : Obligations.OracleCalls := by
  intro i s t hexec
  by_cases hi : i = .step
  · subst hi
    cases hlive : s.live with
    | false =>
      obtain rfl := next_inj ((exec_of_dead (i := .step) hlive nofun).symm.trans hexec)
      exact ⟨nofun, fun _ => ⟨rfl, rfl⟩⟩
    | true =>
      obtain rfl := next_inj ((exec_step_of_live hlive).symm.trans hexec)
      simpa using stepRule_oracle defaultConfig s
  · rw [← execWith_default] at hexec
    exact ⟨fun ⟨hstep, _⟩ => absurd hstep hi, fun _ => (execWith_effect hexec).keeps_oracle hi⟩

/-! MUTE (R217). -/

/-- STEP reads MUTE for the response only. -/
theorem stepRule_mute (cfg : Config) (s : State) :
    stepRule cfg { s with mute := true } =
      { stepRule cfg { s with mute := false } with mute := true, resp := some (okWord 0) } := by
  have hreverb (l r : S16) := reverbProcess_congr (s := { s with mute := false })
    (t := { s with mute := true }) ⟨rfl, rfl, rfl, rfl, rfl, rfl, rfl⟩ l r
  simp only [reverbProcess_eq_reverbRule] at hreverb
  simp only [stepRule, hreverb, ↓reduceIte]
  rfl

/-- Settles O31: both STEPs are of a live engine. -/
theorem muteOnlySilences : Obligations.MuteOnlySilences := fun s hlive =>
  ⟨_, exec_step_of_live (s := { s with mute := false }) hlive,
    (exec_step_of_live (s := { s with mute := true }) hlive).trans
      (congrArg _ (stepRule_mute defaultConfig s))⟩

/-! CYCLE (R218). -/

/-- On a live engine no operation but STEP and DESTROY changes CYCLE or ends the engine's life. -/
theorem Effect.keeps_live_cycle {cfg : Config} {s t : State} {i : Instr} (he : Effect cfg s i t)
    (hlive : s.live = true) (hstep : i ≠ .step) (hdestroy : i ≠ .destroy) :
    t.live = true ∧ t.cycle = s.cycle := by
  cases he with
  | step => exact absurd rfl hstep
  | destroy => exact absurd rfl hdestroy
  | init hdead => exact nomatch hdead.symm.trans hlive
  | globalWrite hw =>
    obtain ⟨-, -, hkept, hcycle⟩ := hw.keeps s
    exact ⟨hkept.trans hlive, hcycle⟩
  | answer | ramWr | voiceWrite => exact ⟨hlive, rfl⟩

/-- On a live engine every operation but DESTROY completes, faulting or not, keeps the engine live, and
adds one to CYCLE if it is STEP. -/
theorem exec_counts_step {i : Instr} {s : State} (hlive : s.live = true) (hi : i ≠ .destroy) :
    ∃ t, exec i s = .next t ∧ t.live = true ∧
      t.cycle = s.cycle + if i == .step then 1 else 0 := by
  by_cases hstep : i = .step
  · subst hstep
    exact ⟨_, exec_step_of_live hlive, hlive, rfl⟩
  · obtain ⟨t, -, hexec, -⟩ := exec_answered i s
    have heffect : Effect defaultConfig s i t := execWith_effect (execWith_default ▸ hexec)
    obtain ⟨hkept, hcycle⟩ := heffect.keeps_live_cycle hlive hstep hi
    exact ⟨t, hexec, hkept, by simpa [hstep] using hcycle⟩

/-- Settles O32, by induction on the list: the first operation counts for itself. -/
theorem cycleCountsSteps : Obligations.CycleCountsSteps := by
  intro prog s hlive hkeeps
  induction prog generalizing s with
  | nil => exact ⟨s, rfl, hlive, rfl⟩
  | cons i prog ih =>
    obtain ⟨hi, hrest⟩ := List.forall_mem_cons.1 hkeeps
    obtain ⟨u, hexec, hu, hfirst⟩ := exec_counts_step hlive hi
    obtain ⟨t, hrun, ht, hcycle⟩ := ih u hu hrest
    refine ⟨t, (runOpsOf_cons_of_next hexec).trans hrun, ht, ?_⟩
    rw [hcycle, hfirst, List.count_cons]
    omega

end Sys2Proof.Machine
end

section
/-! PROOFS. Register access (spec file 44, rules R229 to R271): the words of the register formats, the rule
of each kind of access from the shared operation that is its meaning, and what a write leaves for a read. -/

namespace Sys2Proof.Machine

/-! The words (R86). -/

theorem extract_setWidth_high {m n : Nat} (x : BitVec n) :
    (x.setWidth (m + n)).extractLsb' n m = 0#m := by
  rw [← zero_append, extract_append_high]

theorem extract_setWidth_low {m n : Nat} (x : BitVec n) :
    (x.setWidth (m + n)).extractLsb' 0 n = x := by
  rw [← zero_append, BitVec.extractLsb'_append_eq_right]

/-- A zero-extended operand meets the must-be-zero test of its high bits, and reads back whole. -/
theorem onlyIf_setWidth {m n : Nat} (x : BitVec n) (f : BitVec n → Instr) :
    onlyIf ((x.setWidth (m + n)).extractLsb' n m == 0) (f ((x.setWidth (m + n)).extractLsb' 0 n))
      = .ok (f x) := by
  rw [extract_setWidth_high, extract_setWidth_low]
  exact if_pos (beq_self_eq_true _)

theorem formatV16_setWidth (idx : BitVec 8) (x : BitVec 16) (f : Nat → BitVec 16 → Instr) :
    formatV16 idx (x.setWidth 32) f = .ok (f idx.toNat x) :=
  onlyIf_setWidth (m := 16) x (f idx.toNat)

theorem formatV2_setWidth (idx : BitVec 8) (x : BitVec 2) (f : Nat → BitVec 2 → Instr) :
    formatV2 idx (x.setWidth 32) f = .ok (f idx.toNat x) :=
  onlyIf_setWidth (m := 30) x (f idx.toNat)

theorem formatG16_setWidth (x : BitVec 16) (f : BitVec 16 → Instr) :
    formatG16 0 (x.setWidth 32) f = .ok (f x) :=
  onlyIf_setWidth (m := 16) x f

theorem formatG4_setWidth (x : BitVec 4) (f : BitVec 4 → Instr) :
    formatG4 0 (x.setWidth 32) f = .ok (f x) :=
  onlyIf_setWidth (m := 28) x f

theorem formatG1_setWidth (x : BitVec 1) (f : BitVec 1 → Instr) :
    formatG1 0 (x.setWidth 32) f = .ok (f x) :=
  onlyIf_setWidth (m := 31) x f

/-- The index of a reverb register has bits 7 to 5 zero, and reads back. -/
theorem ofNat_register (k : Fin 32) :
    (BitVec.ofNat 8 k.val).extractLsb' 5 3 = 0#3 ∧ regIndex (BitVec.ofNat 8 k.val) = k := by
  revert k
  decide

theorem formatR_ofNat (k : Fin 32) (f : Fin 32 → Instr) :
    formatR (BitVec.ofNat 8 k.val) 0 f = .ok (f k) := by
  obtain ⟨hhigh, hindex⟩ := ofNat_register k
  rw [formatR, hhigh, hindex]
  rfl

theorem formatR16_ofNat (k : Fin 32) (x : BitVec 16) (f : Fin 32 → BitVec 16 → Instr) :
    formatR16 (BitVec.ofNat 8 k.val) (x.setWidth 32) f = .ok (f k x) := by
  obtain ⟨hhigh, hindex⟩ := ofNat_register k
  rw [formatR16, hhigh, hindex]
  exact onlyIf_setWidth (m := 16) x (f k)

/-- An index of 32 or more has a must-be-zero bit set. -/
theorem register_high_ne_zero {idx : BitVec 8} (h : 32 ≤ idx.toNat) :
    (idx.extractLsb' 5 3 == 0) = false := by
  revert idx
  decide

theorem formatR_of_ge {idx : BitVec 8} (h : 32 ≤ idx.toNat) (operand : Word32) (f : Fin 32 → Instr) :
    formatR idx operand f = .error .mustBeZero := by
  rw [formatR, register_high_ne_zero h]
  rfl

theorem formatR16_of_ge {idx : BitVec 8} (h : 32 ≤ idx.toNat) (operand : Word32)
    (f : Fin 32 → BitVec 16 → Instr) : formatR16 idx operand f = .error .mustBeZero := by
  rw [formatR16, register_high_ne_zero h]
  rfl

/-! The flag words and the values (R89, R102, R103). -/

theorem halfValue_eq_setWidth (x : BitVec 16) : halfValue x = x.setWidth 32 := zero_append x

/-- The bits of the voice flag word as numbers. -/
theorem setVoiceFlags_eq (x : BitVec 2) (v : Voice) :
    setVoiceFlags x v =
      { v with disabled := decide (x.toNat % 2 = 1), rsend := decide (2 ≤ x.toNat) } := by
  have hbits : x.getLsbD 0 = decide (x.toNat % 2 = 1) ∧ x.getLsbD 1 = decide (2 ≤ x.toNat) := by
    revert x
    decide
  obtain ⟨hdisabled, hrsend⟩ := hbits
  rw [setVoiceFlags, hdisabled, hrsend]

/-- The bits of the control word as numbers. -/
theorem setCtrl_eq (x : BitVec 4) (s : State) :
    setCtrl x s =
      { s with
        mute := decide (x.toNat % 2 = 1), reverbEn := decide (x.toNat / 2 % 2 = 1),
        extEn := decide (x.toNat / 4 % 2 = 1), extReverbEn := decide (8 ≤ x.toNat) } := by
  have hbits : x.getLsbD 0 = decide (x.toNat % 2 = 1) ∧
      x.getLsbD 1 = decide (x.toNat / 2 % 2 = 1) ∧
      x.getLsbD 2 = decide (x.toNat / 4 % 2 = 1) ∧ x.getLsbD 3 = decide (8 ≤ x.toNat) := by
    revert x
    decide
  obtain ⟨hmute, hreverb, hext, hextReverb⟩ := hbits
  rw [setCtrl, hmute, hreverb, hext, hextReverb]

theorem getLsbD_zero_eq_decide (x : BitVec 1) : x.getLsbD 0 = decide (x.toNat = 1) := by
  revert x
  decide

theorem voiceFlagsValue_eq (v : Voice) :
    voiceFlagsValue v = (if v.disabled then 1 else 0) + 2 * (if v.rsend then 1 else 0) := by
  unfold voiceFlagsValue
  generalize v.disabled = d, v.rsend = r
  revert d r
  decide

theorem ctrlValue_eq (s : State) :
    ctrlValue s = (if s.mute then 1 else 0) + 2 * (if s.reverbEn then 1 else 0)
      + 4 * (if s.extEn then 1 else 0) + 8 * (if s.extReverbEn then 1 else 0) := by
  unfold ctrlValue
  generalize s.mute = m, s.reverbEn = r, s.extEn = e, s.extReverbEn = er
  revert m r e er
  decide

/-- The voice flags read back as they were written. -/
theorem voiceFlagsValue_setVoiceFlags (x : BitVec 2) (v : Voice) :
    voiceFlagsValue (setVoiceFlags x v) = x.setWidth 32 := by
  rw [voiceFlagsValue, setVoiceFlags_disabled, setVoiceFlags_rsend]
  revert x
  decide

/-- The control flags read back as they were written. -/
theorem ctrlValue_setCtrl (x : BitVec 4) (s : State) :
    ctrlValue (setCtrl x s) = x.setWidth 32 := by
  rw [ctrlValue, setCtrl_mute, setCtrl_reverbEn, setCtrl_extEn, setCtrl_extReverbEn]
  revert x
  decide

/-! The rule of each kind of access (R229). -/

theorem faultsNotLive_of_ifLive {i : Instr} {k : State → Answer}
    (hexec : ∀ s, exec i s = ifLive s (k s)) : FaultsNotLive i := fun s hdead =>
  (hexec s).trans (ifLive_of_dead _ hdead)

theorem faultsVoice_of_readVoice {i : Nat → Instr} {f : Voice → Word32}
    (hexec : ∀ n s, exec (i n) s = readVoice n f s) : FaultsVoice i := fun s n =>
  ⟨fun hdead => (hexec n s).trans (withVoice_of_dead _ hdead),
    fun hlive hn => (hexec n s).trans (withVoice_of_no_voice _ hlive hn)⟩

theorem writesVoice_of_changeVoice {k : Nat} {op : BitVec 8} {i : Nat → BitVec k → Instr}
    {operand : BitVec k → Word32} {f : BitVec k → Voice → Voice}
    (hdec : ∀ imm idx, DecodesTo op idx (operand imm) (i idx.toNat imm))
    (hexec : ∀ imm n s, exec (i n imm) s = changeVoice n (f imm) s) :
    WritesVoice op i operand f := fun imm =>
  ⟨hdec imm, faultsVoice_of_changeVoice (hexec imm), fun s n _ hlive hv =>
    (hexec imm n s).trans (changeVoice_of_voice (f imm) hlive hv)⟩

theorem readsVoice_of_readVoice {op : BitVec 8} {i : Nat → Instr} {value : Voice → Word32}
    (hdec : ∀ idx, DecodesTo op idx 0 (i idx.toNat))
    (hexec : ∀ n s, exec (i n) s = readVoice n value s) : ReadsVoice op i value :=
  ⟨hdec, faultsVoice_of_readVoice hexec, fun s n _ hlive hv =>
    (hexec n s).trans (readVoice_of_voice value hlive hv)⟩

theorem writesGlobal_of_changeGlobal {k : Nat} {op : BitVec 8} {i : BitVec k → Instr}
    {operand : BitVec k → Word32} {f : BitVec k → State → State}
    (hdec : ∀ imm, DecodesTo op 0 (operand imm) (i imm))
    (hexec : ∀ imm s, exec (i imm) s = changeGlobal (f imm) s) :
    WritesGlobal op i operand f := fun imm =>
  ⟨hdec imm, faultsNotLive_of_ifLive (hexec imm), fun s hlive =>
    (hexec imm s).trans (changeGlobal_of_live (f imm) hlive)⟩

theorem readsGlobal_of_readGlobal {op : BitVec 8} {i : Instr} {value : State → Word32}
    (hdec : DecodesTo op 0 0 i) (hexec : ∀ s, exec i s = readGlobal value s) :
    ReadsGlobal op i value :=
  ⟨hdec, faultsNotLive_of_ifLive hexec, fun s hlive =>
    (hexec s).trans (readGlobal_of_live value hlive)⟩

/-! The 16-bit and 32-bit registers: format and value are those of the register's width. -/

section
variable {op : BitVec 8}

theorem writesVoice_half {i : Nat → BitVec 16 → Instr} {f : BitVec 16 → Voice → Voice}
    (hop : ∀ idx operand, decodeFields op idx operand = formatV16 idx operand i)
    (hexec : ∀ imm n s, exec (i n imm) s = changeVoice n (f imm) s) :
    WritesVoice op i (fun x => x.setWidth 32) f :=
  writesVoice_of_changeVoice
    (fun imm idx => (decode_fields op idx _).trans ((hop idx _).trans (formatV16_setWidth idx imm i)))
    hexec

theorem writesGlobal_half {i : BitVec 16 → Instr} {f : BitVec 16 → State → State}
    (hop : ∀ operand, decodeFields op 0 operand = formatG16 0 operand i)
    (hexec : ∀ imm s, exec (i imm) s = changeGlobal (f imm) s) :
    WritesGlobal op i (fun x => x.setWidth 32) f :=
  writesGlobal_of_changeGlobal
    (fun imm => (decode_fields op 0 _).trans ((hop _).trans (formatG16_setWidth imm i))) hexec

theorem readsVoice_half {i : Nat → Instr} {reg : Voice → BitVec 16}
    (hop : ∀ idx, decodeFields op idx 0 = .ok (i idx.toNat))
    (hexec : ∀ n s, exec (i n) s = readVoice n (fun v => halfValue (reg v)) s) :
    ReadsVoice op i (fun v => (reg v).setWidth 32) := by
  simp only [halfValue_eq_setWidth] at hexec
  exact readsVoice_of_readVoice (fun idx => (decode_fields op idx 0).trans (hop idx)) hexec

theorem readsGlobal_half {i : Instr} {reg : State → BitVec 16}
    (hop : decodeFields op 0 0 = .ok i)
    (hexec : ∀ s, exec i s = readGlobal (fun s => halfValue (reg s)) s) :
    ReadsGlobal op i (fun s => (reg s).setWidth 32) := by
  simp only [halfValue_eq_setWidth] at hexec
  exact readsGlobal_of_readGlobal ((decode_fields op 0 0).trans hop) hexec

end

/-- Settles O16: the flag word by its bits, the other five by their width. -/
theorem voiceRegisterWrites : Obligations.VoiceRegisterWrites := by
  refine ⟨writesVoice_half (fun _ _ => rfl) fun _ _ _ => rfl,
    writesVoice_half (fun _ _ => rfl) fun _ _ _ => rfl,
    writesVoice_half (fun _ _ => rfl) fun _ _ _ => rfl,
    writesVoice_of_changeVoice (fun x idx => decode_fields 0x13 idx x) fun _ _ _ => rfl,
    writesVoice_of_changeVoice (fun x idx => decode_fields 0x14 idx x) fun _ _ _ => rfl,
    writesVoice_of_changeVoice
      (fun x idx => (decode_fields 0x15 idx _).trans (formatV2_setWidth idx x .wrVflags))
      fun x n s => ?_⟩
  simp only [← setVoiceFlags_eq]
  rfl

/-- Settles O17: all six are 16-bit registers. -/
theorem volumeWrites : Obligations.VolumeWrites :=
  ⟨writesGlobal_half (fun _ => rfl) fun _ _ => rfl, writesGlobal_half (fun _ => rfl) fun _ _ => rfl,
    writesGlobal_half (fun _ => rfl) fun _ _ => rfl, writesGlobal_half (fun _ => rfl) fun _ _ => rfl,
    writesGlobal_half (fun _ => rfl) fun _ _ => rfl, writesGlobal_half (fun _ => rfl) fun _ _ => rfl⟩

/-- WR_RREG of a live engine stores its operand in register k (R245). -/
theorem exec_wrRreg_of_live (k : Fin 32) (x : U16) {s : State} (hlive : s.live = true) :
    exec (.wrRreg k x) s
      = .next (answered (okWord 0) { s with rr := s.rr.set k.val x k.isLt }) :=
  changeGlobal_of_live (fun s => { s with rr := s.rr.set k.val x k.isLt }) hlive

/-- Settles O18: the flag words by their bits, the reverb registers by the law of their file. -/
theorem controlWrites : Obligations.ControlWrites := by
  refine ⟨?ctrl, ?rbase, fun k x => ⟨?word, ?fault, fun s hlive => ?effect⟩, ?illegal, ?extCb⟩
  case ctrl =>
    refine writesGlobal_of_changeGlobal
      (fun x => (decode_fields 0x26 0 _).trans (formatG4_setWidth x .wrCtrl)) fun x s => ?_
    simp only [← setCtrl_eq]
    rfl
  case rbase =>
    exact writesGlobal_of_changeGlobal (fun x => decode_fields 0x27 0 x) fun _ _ => rfl
  case word =>
    exact (decode_fields 0x28 _ _).trans (formatR16_ofNat k x .wrRreg)
  case fault =>
    exact faultsNotLive_of_ifLive (i := .wrRreg k x) fun _ => rfl
  case effect =>
    refine ⟨_, exec_wrRreg_of_live k x hlive, rfl, ?_, fun j hj => ?_⟩
    · exact (vector_get_set s.rr k k x).trans (if_pos rfl)
    · exact (vector_get_set s.rr k j x).trans (if_neg hj.symm)
  case illegal =>
    exact fun idx x hidx => (decode_fields 0x28 idx _).trans (formatR16_of_ge hidx _ _)
  case extCb =>
    refine writesGlobal_of_changeGlobal
      (fun x => (decode_fields 0x06 0 _).trans (formatG1_setWidth x .setExtcb)) fun x s => ?_
    simp only [← getLsbD_zero_eq_decide]
    rfl

/-- Settles O19: the flag word by its bits, the other five by their width. -/
theorem voiceRegisterReads : Obligations.VoiceRegisterReads := by
  refine ⟨readsVoice_half (fun _ => rfl) fun _ _ => rfl, readsVoice_half (fun _ => rfl) fun _ _ => rfl,
    readsVoice_half (fun _ => rfl) fun _ _ => rfl,
    readsVoice_of_readVoice (fun idx => decode_fields 0x93 idx 0) fun _ _ => rfl,
    readsVoice_of_readVoice (fun idx => decode_fields 0x94 idx 0) fun _ _ => rfl,
    readsVoice_of_readVoice (fun idx => decode_fields 0x95 idx 0) fun n s => ?_⟩
  simp only [← voiceFlagsValue_eq]
  rfl

/-- RD_RREG answers with register k (R265). -/
theorem exec_rdRreg_of_live (k : Fin 32) {s : State} (hlive : s.live = true) :
    exec (.rdRreg k) s = .next (answered (okWord ((s.rr.get k).setWidth 32)) s) :=
  halfValue_eq_setWidth (s.rr.get k) ▸ readGlobal_of_live (fun s => halfValue (s.rr.get k)) hlive

/-- Settles O20: the flag word by its bits, the others by their width. -/
theorem globalRegisterReads : Obligations.GlobalRegisterReads := by
  refine ⟨readsGlobal_half rfl fun _ => rfl, readsGlobal_half rfl fun _ => rfl,
    readsGlobal_half rfl fun _ => rfl, readsGlobal_half rfl fun _ => rfl,
    readsGlobal_half rfl fun _ => rfl, readsGlobal_half rfl fun _ => rfl,
    readsGlobal_of_readGlobal (decode_fields 0xA6 0 0) fun s => ?ctrl,
    readsGlobal_of_readGlobal (decode_fields 0xA7 0 0) fun _ => rfl, fun k => ?rreg, ?illegal⟩
  case ctrl =>
    simp only [← ctrlValue_eq]
    rfl
  case rreg =>
    exact ⟨(decode_fields 0xA8 _ 0).trans (formatR_ofNat k .rdRreg),
      faultsNotLive_of_ifLive (i := .rdRreg k) fun _ => rfl, fun _ => exec_rdRreg_of_live k⟩
  case illegal =>
    exact fun idx hidx => (decode_fields 0xA8 idx 0).trans (formatR_of_ge hidx 0 _)

/-! RAM (R270, R271). -/

/-- Settles O22: the effect by the law of RAM, the faults by the two checks. -/
theorem ramWriteResult : Obligations.RamWriteResult :=
  ⟨fun b a => decode_fields 0x30 b a, fun b addr =>
    ⟨fun _ hdead => withAddress_of_dead _ hdead, fun s hlive =>
      ⟨fun hout => withAddress_of_ge _ hlive hout, fun hin =>
        ⟨_, exec_ramWr_of_lt b hlive hin, rfl, read_write_same s.ram addr b,
          fun a ha => read_write_other s.ram addr a b ha.symm⟩⟩⟩⟩

/-- Settles O23: the two checks, and the byte inside RAM. -/
theorem ramReadResult : Obligations.RamReadResult :=
  ⟨fun a => decode_fields 0x31 0 a, fun _ =>
    ⟨fun _ hdead => withAddress_of_dead _ hdead, fun _ hlive =>
      ⟨fun hout => withAddress_of_ge _ hlive hout, fun hin => execRamRd_of_lt hlive hin⟩⟩⟩

/-! A write and then its read. -/

section
variable {write read : Instr} {value : Word32} {s : State} (hlive : s.live = true)
include hlive

/-- The read of a voice register answers with what the write has left in it. -/
theorem readsBack_of_voice {n : Nat} {f : Voice → Voice} {g : Voice → Word32} (hn : n < s.nVoices)
    (hwrite : ∀ s, exec write s = changeVoice n f s) (hread : ∀ s, exec read s = readVoice n g s)
    (hvalue : ∀ v, g (f v) = value) : ReadsBack write read value s := by
  have hv : s.voices[n]? = some s.voices[n] := List.getElem?_eq_getElem hn
  let t := answered (okWord 0) (setVoice n (f s.voices[n]) s)
  have ht : t.voices[n]? = some (f s.voices[n]) := setVoice_getElem? _ hv
  exact ⟨t, _, (hwrite s).trans (changeVoice_of_voice f hlive hv),
    (hread t).trans (readVoice_of_voice g (s := t) hlive ht), by rw [answered_resp, hvalue]⟩

/-- The read of a global register answers with what the write has left in it. -/
theorem readsBack_of_global {f : State → State} {g : State → Word32}
    (hwrite : ∀ s, exec write s = changeGlobal f s) (hread : ∀ s, exec read s = readGlobal g s)
    (hkept : (f s).live = s.live)
    (hvalue : g (answered (okWord 0) (f s)) = value) : ReadsBack write read value s :=
  ⟨_, _, (hwrite s).trans (changeGlobal_of_live f hlive),
    (hread _).trans (readGlobal_of_live g (s := answered (okWord 0) (f s)) (hkept.trans hlive)),
    by rw [answered_resp, hvalue]⟩

theorem readsBack_ram {addr : Nat} (b : Byte) (hin : addr < s.ramSize) :
    ReadsBack (.ramWr b addr) (.ramRd addr) (b.setWidth 32) s := by
  let t := answered (okWord 0) { s with ram := Memory.write s.ram addr b }
  refine ⟨t, _, exec_ramWr_of_lt b hlive hin, execRamRd_of_lt (s := t) hlive hin, ?_⟩
  rw [answered_resp, answered_ram, read_write_same]

end

theorem halfValue_get_set (rr : Vector U16 32) (k : Fin 32) (x : U16) :
    halfValue ((rr.set k.val x k.isLt).get k) = x.setWidth 32 := by
  rw [vector_get_set, if_pos rfl, halfValue_eq_setWidth]

/-- Settles O21: each pair is a write and a read of one field. -/
theorem readAfterWrite : Obligations.ReadAfterWrite := by
  intro s hlive
  refine ⟨fun n hn => ⟨fun x => ?rate, fun x => ?volL, fun x => ?volR, fun x => ?adsr,
      fun x => ?start, fun x => ?flags⟩,
    fun x => ?mvolL, fun x => ?mvolR, fun x => ?rvolL, fun x => ?rvolR, fun x => ?xvolL,
    fun x => ?xvolR, fun x => ?ctrl, fun x => ?rbase, fun k x => ?rreg,
    fun b _ hin => readsBack_ram hlive b hin⟩
  case rate | volL | volR =>
    exact readsBack_of_voice hlive hn (fun _ => rfl) (fun _ => rfl) fun _ => halfValue_eq_setWidth x
  case adsr | start =>
    exact readsBack_of_voice hlive hn (fun _ => rfl) (fun _ => rfl) fun _ => rfl
  case flags =>
    exact readsBack_of_voice hlive hn (fun _ => rfl) (fun _ => rfl) (voiceFlagsValue_setVoiceFlags x)
  case mvolL | mvolR | rvolL | rvolR | xvolL | xvolR =>
    exact readsBack_of_global hlive (fun _ => rfl) (fun _ => rfl) rfl (halfValue_eq_setWidth x)
  case ctrl =>
    exact readsBack_of_global hlive (fun _ => rfl) (fun _ => rfl) rfl (ctrlValue_setCtrl x s)
  case rbase =>
    exact readsBack_of_global hlive (fun _ => rfl) (fun _ => rfl) rfl rfl
  case rreg =>
    exact readsBack_of_global hlive (fun _ => rfl) (fun _ => rfl) rfl (halfValue_get_set s.rr k x)

end Sys2Proof.Machine
end

section
/-! PROOFS. Save-state (spec file 44, rule R275): two engines whose voices differ only where a voice is Off
in both, and there in its playback position and its envelope alone, answer the same to every command. -/

namespace Sys2Proof.Machine

/-! Voices that no response tells apart. -/

/-- The voices are the same, or both are Off with the same host-written registers. -/
def Voice.Alike (v w : Voice) : Prop := v = w ∨ v.SamePersisted w

theorem Voice.Alike.registers {v w : Voice} (h : v.Alike w) : v.SameRegisters w := by
  obtain rfl | h := h
  · exact ⟨rfl, rfl, rfl, rfl, rfl, rfl, rfl⟩
  · exact h.registers

/-- KON reads nothing of the voice but its registers (R141). -/
theorem keyOn_congr {v w : Voice} (h : v.SameRegisters w) : keyOn v = keyOn w := by
  simp only [keyOn, h.rate, h.volL, h.volR, h.adsr, h.start, h.disabled, h.rsend]

/-- A voice write keeps voices alike: KON makes them one, and the others leave an Off voice Off. -/
theorem VoiceWrite.alike {i : Instr} {n : Nat} {f : Voice → Voice} (hwrite : VoiceWrite i n f)
    {v w : Voice} (h : v.Alike w) : (f v).Alike (f w) := by
  obtain rfl | ⟨hsame, hv, hw⟩ := h
  · exact .inl rfl
  · cases hwrite with
    | kon => exact .inl (keyOn_congr hsame)
    | koff => rw [keyOff_of_off hv, keyOff_of_off hw]; exact .inr ⟨hsame, hv, hw⟩
    | rate => exact .inr ⟨{ hsame with rate := rfl }, hv, hw⟩
    | volL => exact .inr ⟨{ hsame with volL := rfl }, hv, hw⟩
    | volR => exact .inr ⟨{ hsame with volR := rfl }, hv, hw⟩
    | adsr => exact .inr ⟨{ hsame with adsr := rfl }, hv, hw⟩
    | start => exact .inr ⟨{ hsame with start := rfl }, hv, hw⟩
    | flags => exact .inr ⟨{ hsame with disabled := rfl, rsend := rfl }, hv, hw⟩

/-- The operations that read a register of voice `n`, and the value (R250 to R255). -/
inductive VoiceRead : Instr → Nat → (Voice → Word32) → Prop
  | rate (n : Nat) : VoiceRead (.rdVrate n) n fun v => halfValue v.rate
  | volL (n : Nat) : VoiceRead (.rdVvoll n) n fun v => halfValue v.volL
  | volR (n : Nat) : VoiceRead (.rdVvolr n) n fun v => halfValue v.volR
  | adsr (n : Nat) : VoiceRead (.rdVadsr n) n fun v => v.adsr
  | start (n : Nat) : VoiceRead (.rdVstart n) n fun v => v.start
  | flags (n : Nat) : VoiceRead (.rdVflags n) n voiceFlagsValue

theorem VoiceWrite.execWith_eq {i : Instr} {n : Nat} {f : Voice → Voice} (hw : VoiceWrite i n f)
    (cfg : Config) : execWith cfg i = changeVoice n f := by
  cases hw with
  | _ => rfl

theorem VoiceRead.execWith_eq {i : Instr} {n : Nat} {f : Voice → Word32} (hr : VoiceRead i n f)
    (cfg : Config) : execWith cfg i = readVoice n f := by
  cases hr with
  | _ => rfl

theorem GlobalWrite.execWith_eq {i : Instr} {f : State → State} (hw : GlobalWrite i f)
    (cfg : Config) : execWith cfg i = changeGlobal f := by
  cases hw with
  | _ => rfl

/-- No value of a voice register depends on more of the voice than its registers. -/
theorem VoiceRead.congr {i : Instr} {n : Nat} {f : Voice → Word32} (hr : VoiceRead i n f)
    {v w : Voice} (h : v.SameRegisters w) : f v = f w := by
  cases hr with
  | rate => exact congrArg halfValue h.rate
  | volL => exact congrArg halfValue h.volL
  | volR => exact congrArg halfValue h.volR
  | adsr => exact h.adsr
  | start => exact h.start
  | flags => rw [voiceFlagsValue, voiceFlagsValue, h.disabled, h.rsend]

/-- Two steps of a voice contribute the same and leave the voices alike. -/
structure VoiceOut.Alike (o p : VoiceOut) : Prop where
  voice : o.voice.Alike p.voice
  left : p.left = o.left
  right : p.right = o.right

/-- A step keeps voices alike, and they contribute the same: an Off voice contributes nothing (R149). -/
theorem voiceStep_alike (cfg : Config) (ram : Memory) (blocks : Nat) {v w : Voice} (h : v.Alike w) :
    (voiceStep cfg ram blocks v).Alike (voiceStep cfg ram blocks w) := by
  obtain rfl | hoff := h
  · exact ⟨.inl rfl, rfl, rfl⟩
  · rw [silentVoiceUntouched cfg ram blocks v (.inr hoff.leftOff),
      silentVoiceUntouched cfg ram blocks w (.inr hoff.rightOff)]
    exact ⟨.inr hoff, rfl, rfl⟩

/-! Engines that no response tells apart. -/

/-- Two live engines differ at most in their voices, which are pairwise alike. -/
def SamePlaying (s t : State) : Prop :=
  s.live = true ∧ ∃ vs, List.Forall₂ Voice.Alike s.voices vs ∧ t = { s with voices := vs }

/-- Two answers are the same, or next states of engines that no response tells apart. -/
def AnswersSame (a b : Answer) : Prop :=
  a = b ∨ ∃ s t, a = .next s ∧ b = .next t ∧ SamePlaying s t

theorem forall₂_set_set {α β : Type} {R : α → β → Prop} {l : List α} {l' : List β} {a : α} {b : β}
    (h : List.Forall₂ R l l') (hab : R a b) (n : Nat) : List.Forall₂ R (l.set n a) (l'.set n b) := by
  induction h generalizing n with
  | nil => exact .nil
  | cons hx hxs ih =>
    cases n with
    | zero => exact .cons hab hxs
    | succ n => exact .cons hx (ih n)

/-- STEP of two engines that no response tells apart: the mix is the same, for each voice contributes the
same, and so is everything but the voices. -/
theorem SamePlaying.stepRule {s t : State} (h : SamePlaying s t) (cfg : Config) :
    SamePlaying (stepRule cfg s) (stepRule cfg t) := by
  obtain ⟨hlive, vs, hvs, rfl⟩ := h
  have houts : List.Forall₂ VoiceOut.Alike (s.voices.map (voiceStep cfg s.ram (s.ramSize / 16)))
      (vs.map (voiceStep cfg s.ram (s.ramSize / 16))) := by
    rw [List.forall₂_map_left_iff, List.forall₂_map_right_iff]
    exact hvs.imp fun _ _ => voiceStep_alike cfg s.ram _
  have hsent := List.rel_filter (p := fun o => o.voice.rsend) (q := fun o => o.voice.rsend)
    (fun _ _ hop => Bool.eq_iff_iff.1 hop.voice.registers.rsend) houts
  have hreverb (l r : S16) := reverbProcess_congr (s := s) (t := { s with voices := vs })
    ⟨rfl, rfl, rfl, rfl, rfl, rfl, rfl⟩ l r
  simp only [reverbProcess_eq_reverbRule] at hreverb
  refine ⟨hlive, (vs.map (voiceStep cfg s.ram (s.ramSize / 16))).map (·.voice), ?_, ?_⟩
  · dsimp only [Machine.stepRule]
    rw [List.forall₂_map_left_iff, List.forall₂_map_right_iff]
    exact houts.imp fun _ _ hop => hop.voice
  · simp only [Machine.stepRule, hreverb, map_eq_of_forall₂ (houts.imp fun _ _ hop => hop.left),
      map_eq_of_forall₂ (houts.imp fun _ _ hop => hop.right),
      map_eq_of_forall₂ (hsent.imp fun _ _ hop => hop.left),
      map_eq_of_forall₂ (hsent.imp fun _ _ hop => hop.right)]

section
variable {s t : State} (h : SamePlaying s t)
include h

theorem SamePlaying.answered (w : Word) :
    AnswersSame (.next (answered w s)) (.next (answered w t)) := by
  obtain ⟨hlive, vs, hvs, rfl⟩ := h
  exact .inr ⟨_, _, rfl, rfl, hlive, vs, hvs, rfl⟩

theorem SamePlaying.withCmds (rest : List Word) :
    SamePlaying { s with cmds := rest } { t with cmds := rest } := by
  obtain ⟨hlive, vs, hvs, rfl⟩ := h
  exact ⟨hlive, vs, hvs, rfl⟩

theorem SamePlaying.withRam (m : Memory) :
    SamePlaying { s with ram := m } { t with ram := m } := by
  obtain ⟨hlive, vs, hvs, rfl⟩ := h
  exact ⟨hlive, vs, hvs, rfl⟩

theorem SamePlaying.setVoice {v w : Voice} (hvw : v.Alike w) (n : Nat) :
    SamePlaying (setVoice n v s) (setVoice n w t) := by
  obtain ⟨hlive, vs, hvs, rfl⟩ := h
  exact ⟨hlive, vs.set n w, forall₂_set_set hvs hvw n, rfl⟩

/-- No register write reads a voice. -/
theorem GlobalWrite.samePlaying {i : Instr} {f : State → State} (hw : GlobalWrite i f) :
    SamePlaying (f s) (f t) := by
  obtain ⟨hlive, vs, hvs, rfl⟩ := h
  cases hw with
  | _ => exact ⟨hlive, vs, hvs, rfl⟩

theorem SamePlaying.ifLive {k k' : Answer} (hk : AnswersSame k k') :
    AnswersSame (ifLive s k) (ifLive t k') := by
  obtain ⟨hlive, vs, hvs, rfl⟩ := h
  rwa [ifLive_of_live k hlive, ifLive_of_live (s := { s with voices := vs }) k' hlive]

theorem SamePlaying.withVoice (n : Nat) {k k' : Voice → Answer}
    (hk : ∀ v w, v.Alike w → AnswersSame (k v) (k' w)) :
    AnswersSame (withVoice n s k) (withVoice n t k') := by
  have hfault := h.answered (faultWord .voiceIndexFault)
  obtain ⟨hlive, vs, hvs, rfl⟩ := h
  have hlength := hvs.length_eq
  by_cases hn : n < s.voices.length
  · have hn' : n < vs.length := hlength ▸ hn
    rw [withVoice_of_voice k hlive (List.getElem?_eq_getElem hn),
      withVoice_of_voice (s := { s with voices := vs }) k' hlive (List.getElem?_eq_getElem hn')]
    exact hk _ _ (hvs.get hn hn')
  · have hn' : vs.length ≤ n := hlength ▸ Nat.not_lt.1 hn
    rwa [withVoice_of_no_voice k hlive (Nat.not_lt.1 hn),
      withVoice_of_no_voice (s := { s with voices := vs }) k' hlive hn']

theorem SamePlaying.withAddress (addr : Nat) {k k' : Answer} (hk : AnswersSame k k') :
    AnswersSame (withAddress addr s k) (withAddress addr t k') := by
  refine h.ifLive ?_
  have hfault := h.answered (faultWord .ramAddressFault)
  obtain ⟨hlive, vs, hvs, rfl⟩ := h
  dsimp only
  split
  · exact hk
  · exact hfault

theorem SamePlaying.respond (v : Word32) : AnswersSame (respond v s) (respond v t) := h.answered _

theorem SamePlaying.voiceWrite {i : Instr} {n : Nat} {f : Voice → Voice} (hw : VoiceWrite i n f)
    (cfg : Config) : AnswersSame (execWith cfg i s) (execWith cfg i t) := by
  rw [hw.execWith_eq]
  exact h.withVoice n fun _ _ hvw => (h.setVoice (hw.alike hvw) n).respond 0

theorem SamePlaying.voiceRead {i : Instr} {n : Nat} {f : Voice → Word32} (hr : VoiceRead i n f)
    (cfg : Config) : AnswersSame (execWith cfg i s) (execWith cfg i t) := by
  rw [hr.execWith_eq]
  refine h.withVoice n fun v w hvw => ?_
  rw [hr.congr hvw.registers]
  exact h.respond _

theorem SamePlaying.globalWrite {i : Instr} {f : State → State} (hw : GlobalWrite i f)
    (cfg : Config) : AnswersSame (execWith cfg i s) (execWith cfg i t) := by
  rw [hw.execWith_eq]
  exact h.ifLive ((hw.samePlaying h).respond 0)

/-- No value of a global register depends on a voice. -/
theorem SamePlaying.readGlobal {f : State → Word32} (hr : GlobalRead f) :
    AnswersSame (readGlobal f s) (readGlobal f t) := by
  have hvalue : f t = f s := by
    obtain ⟨-, vs, -, rfl⟩ := h
    cases hr with
    | _ => rfl
  rw [Machine.readGlobal, Machine.readGlobal, hvalue]
  exact h.ifLive (h.respond _)

theorem SamePlaying.execInit (nv size : Nat) :
    AnswersSame (execInit nv size s) (execInit nv size t) := by
  have hfault := h.answered (faultWord .alreadyLive)
  obtain ⟨hlive, vs, -, rfl⟩ := h
  rwa [execInit_of_live nv size hlive, execInit_of_live (s := { s with voices := vs }) nv size hlive]

/-- DESTROY leaves the same engine, for the two face the same host (R221). -/
theorem SamePlaying.execDestroy : AnswersSame (execDestroy s) (execDestroy t) := by
  refine h.ifLive (.inl ?_)
  obtain ⟨-, vs, -, rfl⟩ := h
  rfl

theorem SamePlaying.execStepWith (cfg : Config) :
    AnswersSame (execStepWith cfg s) (execStepWith cfg t) := by
  have hstep := h.stepRule cfg
  obtain ⟨hlive, vs, -, rfl⟩ := h
  exact .inr ⟨_, _, execStepWith_of_live cfg hlive, execStepWith_of_live cfg hlive, hstep⟩

theorem SamePlaying.ram : t.ram = s.ram := by
  obtain ⟨-, vs, -, rfl⟩ := h
  rfl

theorem SamePlaying.execRamWr (b : Byte) (addr : Nat) :
    AnswersSame (execRamWr b addr s) (execRamWr b addr t) := by
  rw [Machine.execRamWr, Machine.execRamWr, h.ram]
  exact h.withAddress addr ((h.withRam _).respond 0)

theorem SamePlaying.execRamRd (addr : Nat) :
    AnswersSame (execRamRd addr s) (execRamRd addr t) := by
  rw [Machine.execRamRd, Machine.execRamRd, h.ram]
  exact h.withAddress addr (h.respond _)

/-- Every operation answers the same on two engines that no response tells apart. -/
theorem SamePlaying.execWith (cfg : Config) (i : Instr) :
    AnswersSame (execWith cfg i s) (execWith cfg i t) := by
  cases i with
  | init nv size => exact h.execInit nv size
  | destroy => exact h.execDestroy
  | step => exact h.execStepWith cfg
  | ramWr b addr => exact h.execRamWr b addr
  | ramRd addr => exact h.execRamRd addr
  | kon | koff | wrVrate | wrVvoll | wrVvolr | wrVadsr | wrVstart | wrVflags =>
    exact h.voiceWrite (by constructor) cfg
  | rdVrate | rdVvoll | rdVvolr | rdVadsr | rdVstart | rdVflags =>
    exact h.voiceRead (by constructor) cfg
  | setExtcb | wrMvoll | wrMvolr | wrRvoll | wrRvolr | wrXvoll | wrXvolr | wrCtrl | wrRbase | wrRreg =>
    exact h.globalWrite (by constructor) cfg
  | rdMvoll => exact h.readGlobal .mvolL
  | rdMvolr => exact h.readGlobal .mvolR
  | rdRvoll => exact h.readGlobal .rvolL
  | rdRvolr => exact h.readGlobal .rvolR
  | rdXvoll => exact h.readGlobal .xvolL
  | rdXvolr => exact h.readGlobal .xvolR
  | rdCtrl => exact h.readGlobal .ctrl
  | rdRbase => exact h.readGlobal .rbase
  | rdRreg k => exact h.readGlobal (.rr k)

theorem SamePlaying.host : t.cmds = s.cmds ∧ t.resp = s.resp := by
  obtain ⟨-, vs, -, rfl⟩ := h
  exact ⟨rfl, rfl⟩

theorem SamePlaying.stepWith (cfg : Config) : AnswersSame (stepWith cfg s) (stepWith cfg t) := by
  obtain ⟨ht, -⟩ := h.host
  cases hs : s.cmds with
  | nil => exact .inr ⟨s, t, stepOf_of_no_command hs, stepOf_of_no_command (ht.trans hs), h⟩
  | cons w rest =>
    rw [Machine.stepWith, Machine.stepWith]
    cases hdec : decode w with
    | error e =>
      rw [stepOf_of_illegal hs hdec, stepOf_of_illegal (ht.trans hs) hdec]
      exact (h.withCmds rest).answered _
    | ok i =>
      rw [stepOf_of_legal hs hdec, stepOf_of_legal (ht.trans hs) hdec]
      exact (h.withCmds rest).execWith cfg i

end

/-- By induction on the number of steps: after each the engines are the same or still alike. -/
theorem responsesOf_eq_of_samePlaying (cfg : Config) (n : Nat) {s t : State} (h : SamePlaying s t) :
    responsesOf (stepWith cfg) n t = responsesOf (stepWith cfg) n s := by
  induction n generalizing s t with
  | zero => rfl
  | succ n ih =>
    obtain heq | ⟨s', t', hs, ht, h'⟩ := h.stepWith cfg
    · rw [responsesOf, responsesOf, heq]
    · obtain ⟨-, hresp⟩ := h'.host
      rw [responsesOf_succ_of_next n hs, responsesOf_succ_of_next n ht, hresp, ih h']

/-! The same persisted state (R275). -/

/-- An engine with the same persisted state differs in its voices, which are Off, and then in CYCLE and
ROUT, which are hidden. -/
theorem SamePersisted.split {s t : State} (h : SamePersisted s t) :
    SamePlaying s { s with voices := t.voices } ∧ SameVisible { s with voices := t.voices } t := by
  obtain ⟨hmvolL, hmvolR⟩ := h.mvol
  obtain ⟨hrvolL, hrvolR⟩ := h.rvol
  obtain ⟨hxvolL, hxvolR⟩ := h.xvol
  obtain ⟨hmute, hreverbEn, hextEn, hextReverbEn⟩ := h.ctrl
  obtain ⟨hrcurL, hrcurR⟩ := h.cursors
  obtain ⟨hcmds, hextIn, hextCalls, hresp⟩ := h.host
  refine ⟨⟨h.liveL, t.voices, h.voices.imp fun _ _ => .inr, rfl⟩, t.cycle, t.routL, t.routR, ?_⟩
  simp only [h.liveL.trans h.liveR.symm, h.ramSize, h.ram, hmvolL, hmvolR, hrvolL, hrvolR, hxvolL,
    hxvolR, hmute, hreverbEn, hextEn, hextReverbEn, h.extCb, h.rbase, h.rr, hrcurL.trans hrcurR.symm,
    hcmds, hextIn, hextCalls, hresp]

/-- Settles O60: through the engine that has the one's voices and is the other in all else. -/
theorem saveStateRoundTrip : Obligations.SaveStateRoundTrip := by
  intro s t h n
  obtain ⟨hplaying, hvisible⟩ := h.split
  have hresponses (cfg : Config) :
      responsesOf (stepWith cfg) n s = responsesOf (stepWith cfg) n t := by
    rw [responsesOf_eq_of_sameVisible cfg n hvisible, responsesOf_eq_of_samePlaying cfg n hplaying]
  exact ⟨by simpa only [stepWith_default] using hresponses defaultConfig, hresponses⟩

end Sys2Proof.Machine
end

section
/-! PROOFS. The faults (spec file 60, rules R300 to R308): the checks of each operation raise the fault
that `faultOf` names, in its priority, and where it names none the operation completes. -/

namespace Sys2Proof.Machine

/-- The answer is a next state with status OK (R89). -/
def CompletesOk (a : Answer) : Prop := ∃ t value, a = .next t ∧ t.resp = some (okWord value)

/-- The answer is this fault, with nothing else changed (R300), or, where there is none, OK. -/
def AnswersFault (s : State) (fault : Option Fault) (a : Answer) : Prop :=
  match fault with
  | some f => a = raise f s
  | none => CompletesOk a

theorem respond_completesOk (value : Word32) (s : State) : CompletesOk (respond value s) :=
  ⟨_, value, rfl, rfl⟩

/-! What `faultOf` names, in terms of the checks an operation makes. -/

/-- The lifecycle check, then the value check that raises `check` (R303, R308). -/
def liveFault (s : State) (check : Option Fault) : Option Fault :=
  if s.live = false then some .notLive else check

/-- The check of a voice index (R304). -/
def voiceFault (s : State) (n : Nat) : Option Fault :=
  if s.nVoices ≤ n then some .voiceIndexFault else none

/-- The check of a byte address (R305). -/
def addressFault (s : State) (addr : Nat) : Option Fault :=
  if s.ramSize ≤ addr then some .ramAddressFault else none

theorem faultOf_init (nv size : Nat) (s : State) :
    faultOf (.init nv size) s
      = if s.live then some .alreadyLive
        else if legalParams nv size then none else some .configFault := by
  have hillegal : (24 < nv ∨ size < 16 ∨ size % 16 ≠ 0 ∨ 0xFFFFFFF0 < size)
      ↔ ¬ legalParams nv size = true := by
    rw [legalParams_iff]
    omega
  simp only [faultOf, hillegal, ite_not]

/-- An operation with a voice index has its two checks, the lifecycle first. -/
theorem faultOf_of_voiceIndexOf {i : Instr} {n : Nat} (h : voiceIndexOf i = some n) (s : State) :
    faultOf i s = liveFault s (voiceFault s n) := by
  have haddr : addressOf i = none := by
    unfold addressOf
    split
    · cases h
    · cases h
    · rfl
  unfold faultOf
  split
  · cases h
  · simp [liveFault, voiceFault, h, haddr]

/-- An operation with an address has its two checks, the lifecycle first. -/
theorem faultOf_of_addressOf {i : Instr} {addr : Nat} (h : addressOf i = some addr) (s : State) :
    faultOf i s = liveFault s (addressFault s addr) := by
  have hvoice : voiceIndexOf i = none := by
    revert h
    unfold addressOf
    split
    · exact fun _ => rfl
    · exact fun _ => rfl
    · exact nofun
  unfold faultOf
  split
  · cases h
  · simp [liveFault, addressFault, h, hvoice]

/-- Any other operation but INIT has the lifecycle check only. -/
theorem faultOf_of_no_operand {i : Instr} (hi : ∀ nv size, i ≠ .init nv size)
    (hvoice : voiceIndexOf i = none) (haddr : addressOf i = none) (s : State) :
    faultOf i s = liveFault s none := by
  unfold faultOf
  split
  · exact absurd rfl (hi _ _)
  · simp [liveFault, hvoice, haddr]

/-! The checks raise these faults. -/

theorem ifLive_answersFault {s : State} {check : Option Fault} {k : Answer}
    (h : s.live = true → AnswersFault s check k) :
    AnswersFault s (liveFault s check) (ifLive s k) := by
  cases hlive : s.live with
  | false => rw [liveFault, if_pos hlive]; exact ifLive_of_dead k hlive
  | true => rw [liveFault, if_neg (by simp [hlive]), ifLive_of_live k hlive]; exact h hlive

theorem withVoice_answersFault (n : Nat) {s : State} {k : Voice → Answer}
    (hk : ∀ v, CompletesOk (k v)) :
    AnswersFault s (liveFault s (voiceFault s n)) (withVoice n s k) := by
  refine ifLive_answersFault fun _ => ?_
  by_cases hn : s.nVoices ≤ n
  · rw [voiceFault, if_pos hn, List.getElem?_eq_none hn]
    rfl
  · rw [voiceFault, if_neg hn, List.getElem?_eq_getElem (Nat.lt_of_not_le hn)]
    exact hk _

theorem withAddress_answersFault (addr : Nat) {s : State} {k : Answer} (hk : CompletesOk k) :
    AnswersFault s (liveFault s (addressFault s addr)) (withAddress addr s k) := by
  refine ifLive_answersFault fun _ => ?_
  by_cases haddr : s.ramSize ≤ addr
  · rw [addressFault, if_pos haddr, if_neg (Nat.not_lt.2 haddr)]
    rfl
  · rw [addressFault, if_neg haddr, if_pos (Nat.lt_of_not_le haddr)]
    exact hk

theorem execInit_answersFault (nv size : Nat) (s : State) :
    AnswersFault s (faultOf (.init nv size) s) (execInit nv size s) := by
  rw [faultOf_init]
  cases hlive : s.live with
  | true => exact execInit_of_live nv size hlive
  | false =>
    by_cases hlegal : legalParams nv size = true
    · rw [if_neg Bool.false_ne_true, if_pos hlegal, execInit_of_legal hlive hlegal]
      exact respond_completesOk 0 _
    · rw [if_neg Bool.false_ne_true, if_neg hlegal]
      exact execInit_of_illegal hlive hlegal

/-- Every operation answers the fault that `faultOf` names, or completes. -/
theorem exec_answersFault (i : Instr) (s : State) : AnswersFault s (faultOf i s) (exec i s) := by
  cases i with
  | init nv size => exact execInit_answersFault nv size s
  | kon n | koff n | wrVrate n | wrVvoll n | wrVvolr n | wrVadsr n | wrVstart n | wrVflags n
  | rdVrate n | rdVvoll n | rdVvolr n | rdVadsr n | rdVstart n | rdVflags n =>
    rw [faultOf_of_voiceIndexOf rfl]
    exact withVoice_answersFault n fun _ => respond_completesOk _ _
  | ramWr _ addr | ramRd addr =>
    rw [faultOf_of_addressOf rfl]
    exact withAddress_answersFault addr (respond_completesOk _ _)
  | destroy | step | setExtcb | wrMvoll | wrMvolr | wrRvoll | wrRvolr | wrXvoll | wrXvolr | wrCtrl
  | wrRbase | wrRreg | rdMvoll | rdMvolr | rdRvoll | rdRvolr | rdXvoll | rdXvolr | rdCtrl | rdRbase
  | rdRreg =>
    rw [faultOf_of_no_operand (by simp) rfl rfl]
    exact ifLive_answersFault fun _ => respond_completesOk _ _

/-- Settles O7: `exec_answersFault`, read for a fault and for none. -/
theorem faultsExactly : Obligations.FaultsExactly := by
  intro i s
  have h := exec_answersFault i s
  exact ⟨fun f hf => by rwa [hf] at h, fun hnone => by rwa [hnone] at h⟩

end Sys2Proof.Machine
end
